-- ==== Sys2Proof/Word.lean ====
section
/-! DEFINITION. The words of RPMM-CORE: the widths the spec gives its bit fields (R7, R9, R60, R70). -/

namespace Sys2Proof

/-- A nibble `n[3:0]`, the atomic unit of the wire protocol (R9). -/
abbrev Nibble := BitVec 4

/-- A byte `b[7:0]` (R9): a byte of a USB report. -/
abbrev Byte := BitVec 8

/-- One word of the event interface, format F-EV (R70, R71). -/
abbrev EventWord := BitVec 32

/-- One line micro-op, format F-LOP (R70, R74). -/
abbrev OpByte := BitVec 8

/-- One accumulator register: two's complement, `ACC_W = 32` bits (R7, R23). -/
abbrev AccWord := BitVec 32

/-- A word given to the model, with the format it has. An event word and a line micro-op never mix: each has its own
decoder (R70, R80), and a micro-op is never accepted at the event interface (R74). -/
inductive CodeWord where
  /-- A word at the event interface (F-EV). -/
  | event (w : EventWord)
  /-- A line micro-op (F-LOP), given to the model directly (R79; notes/assumptions/2.md). -/
  | lineOp (b : OpByte)
  deriving DecidableEq, Repr

end Sys2Proof
end

