-- ==== Sys2Proof/Syntax.lean ====
section
/-! DEFINITION. The operations of RPMM-CORE, one constructor per row of spec/opcode_table.json (R72, R74). -/

namespace Sys2Proof

/-- A managed line (R162): data line `Di` or button line `Bk`. Which button lines a block has is `NUM_BTN`'s to say
(WellFormed.lean). -/
inductive Line where
  /-- Data line `Di`, i in 0..3. -/
  | d (i : Fin 4)
  /-- Button line `Bk`, k in 0..1. -/
  | b (k : Fin 2)
  deriving DecidableEq, Repr

/-- An instruction: one of the six event classes (R72) or one of the four line micro-ops (R74). -/
inductive Instr where
  /-- RESET (R191). -/
  | reset
  /-- MOUNT (R186). -/
  | mount
  /-- UNMOUNT (R187). -/
  | unmount
  /-- REPORT LEN, B0, B1, B2 (R181): the saturated length, the button bitmask, the X delta byte, the Y delta byte. -/
  | report (len : BitVec 4) (b0 b1 b2 : Byte)
  /-- FG (R188, R189): one word, the phase selects which step it is. -/
  | fg
  /-- CLK LVL (R190): the level now on the clock input. -/
  | clk (lvl : Bool)
  /-- DRVLO L (R160). -/
  | drvlo (line : Line)
  /-- REL L (R161). -/
  | rel (line : Line)
  /-- SETNIB n (R163). -/
  | setnib (n : Nibble)
  /-- RELALL (R165). -/
  | relall
  deriving DecidableEq, Repr

end Sys2Proof
end

