-- ==== Sys2Proof/WellFormed.lean ====
section
/-! DEFINITION. Which instructions a block with a given `NUM_BTN` has (R74, R79, R162): the one check is that a line an
instruction names is a managed line of the block. -/

namespace Sys2Proof

/-- The line is managed by a block with `numBtn` button lines (R162): every data line is, and `Bk` is when k < NUM_BTN. -/
def Line.present (numBtn : Fin 3) : Line → Bool
  | .d _ => true
  | .b k => decide (k.val < numBtn.val)

/-- The instruction is one the encoding admits for this `NUM_BTN` (R79). -/
def Instr.wf (numBtn : Fin 3) : Instr → Bool
  | .reset => true
  | .mount => true
  | .unmount => true
  | .report _ _ _ _ => true
  | .fg => true
  | .clk _ => true
  | .drvlo line => line.present numBtn
  | .rel line => line.present numBtn
  | .setnib _ => true
  | .relall => true

end Sys2Proof
end

