-- ==== Sys2Proof/Decode.lean ====
section
/-! DEFINITION. Decoding of event words and line micro-ops (R71 to R74, R77 to R80), total, rejecting by name; the
encoder written from the same tables; and the assembly of a report buffer into a REPORT (R73). -/

namespace Sys2Proof

/-- Why a word is illegal (R78, R79). -/
inductive DecodeError where
  /-- `EV` is 0x0 or in 0x7..0xF (R78). -/
  | reservedClass
  /-- A must-be-zero bit is 1 (R78, R79). -/
  | mustBeZero
  /-- `LINE` is 6 or 7 (R79). -/
  | reservedLine
  /-- `LINE` is 4 + k with k ≥ NUM_BTN (R79). -/
  | absentButton
  deriving DecidableEq, Repr

/-- What a decoder answers (R80): one instruction with its operands, or ILLEGAL. -/
inductive Decoded where
  | instr (i : Instr)
  | illegal (why : DecodeError)
  deriving DecidableEq, Repr

/-- The instruction, when all the must-be-zero bits of its class are zero. -/
def whenZero {w : Nat} (mbz : BitVec w) (i : Instr) : Decoded :=
  if mbz = 0 then .instr i else .illegal .mustBeZero

/-- The event decoder: `EV` is bits 31:28, and each class has the fields and must-be-zero bits of R71 and R72. -/
def decodeEvent (w : EventWord) : Decoded :=
  match (w.extractLsb' 28 4).toNat with
  | 0x1 => whenZero (w.extractLsb' 0 28) .reset
  | 0x2 => whenZero (w.extractLsb' 0 28) .mount
  | 0x3 => whenZero (w.extractLsb' 0 28) .unmount
  | 0x4 => .instr (.report (w.extractLsb' 24 4) (w.extractLsb' 16 8) (w.extractLsb' 8 8) (w.extractLsb' 0 8))
  | 0x5 => whenZero (w.extractLsb' 0 28) .fg
  | 0x6 => whenZero (w.extractLsb' 1 27) (.clk (w.getLsbD 0))
  | _ => .illegal .reservedClass

/-- The line a `LINE` field names (R74): 0..3 = D0..D3, 4 = B0, 5 = B1; 6 and 7 name none. -/
def lineOfField (l : BitVec 3) : Option Line :=
  match l.toNat with
  | 0 => some (.d 0)
  | 1 => some (.d 1)
  | 2 => some (.d 2)
  | 3 => some (.d 3)
  | 4 => some (.b 0)
  | 5 => some (.b 1)
  | _ => none

/-- The `LINE` operand of DRVLO or REL (R74, R79): bits 5:3 must be zero, and the line must be one the block has. -/
def decodeLine (numBtn : Fin 3) (b : OpByte) (op : Line → Instr) : Decoded :=
  if b.extractLsb' 3 3 = 0 then
    match lineOfField (b.extractLsb' 0 3) with
    | none => .illegal .reservedLine
    | some line => if line.present numBtn then .instr (op line) else .illegal .absentButton
  else .illegal .mustBeZero

/-- The micro-op decoder: `OP` is bits 7:6 (R74, R79). -/
def decodeLineOp (numBtn : Fin 3) (b : OpByte) : Decoded :=
  match (b.extractLsb' 6 2).toNat with
  | 0 => decodeLine numBtn b .drvlo
  | 1 => decodeLine numBtn b .rel
  | 2 => whenZero (b.extractLsb' 4 2) (.setnib (b.extractLsb' 0 4))
  | _ => whenZero (b.extractLsb' 0 6) .relall

/-- The decoder of a block with `numBtn` button lines (R80): each format has its own. -/
def decode (numBtn : Fin 3) : CodeWord → Decoded
  | .event w => decodeEvent w
  | .lineOp b => decodeLineOp numBtn b

/-- The `LINE` field of a line (R74). -/
def Line.field : Line → BitVec 3
  | .d i => BitVec.ofNat 3 i.val
  | .b k => BitVec.ofNat 3 (4 + k.val)

/-- The word of an instruction: R71 and R72 for an event, R74 for a line micro-op, fields from the most significant. -/
def encode : Instr → CodeWord
  | .reset => .event (0x1#4 ++ 0#28)
  | .mount => .event (0x2#4 ++ 0#28)
  | .unmount => .event (0x3#4 ++ 0#28)
  | .report len b0 b1 b2 => .event (0x4#4 ++ len ++ b0 ++ b1 ++ b2)
  | .fg => .event (0x5#4 ++ 0#28)
  | .clk lvl => .event (0x6#4 ++ 0#27 ++ BitVec.ofBool lvl)
  | .drvlo line => .lineOp (0b00#2 ++ 0#3 ++ line.field)
  | .rel line => .lineOp (0b01#2 ++ 0#3 ++ line.field)
  | .setnib n => .lineOp (0b10#2 ++ 0#2 ++ n)
  | .relall => .lineOp (0b11#2 ++ 0#6)

/-- A row of spec/opcode_table.json: how many bits its words have, and the bits that tell it from the others. -/
structure OpcodeRow where
  nbits : Nat
  pattern : Nat
  mask : Nat
  deriving DecidableEq, Repr

/-- The table's row of an instruction ('match' and 'mask'). The decoder does not use it: R80 says what it must agree with. -/
def Instr.row : Instr → OpcodeRow
  | .reset => ⟨32, 0x10000000, 0xFFFFFFFF⟩
  | .mount => ⟨32, 0x20000000, 0xFFFFFFFF⟩
  | .unmount => ⟨32, 0x30000000, 0xFFFFFFFF⟩
  | .report _ _ _ _ => ⟨32, 0x40000000, 0xF0000000⟩
  | .fg => ⟨32, 0x50000000, 0xFFFFFFFF⟩
  | .clk _ => ⟨32, 0x60000000, 0xFFFFFFFE⟩
  | .drvlo _ => ⟨8, 0x00, 0xF8⟩
  | .rel _ => ⟨8, 0x40, 0xF8⟩
  | .setnib _ => ⟨8, 0x80, 0xF0⟩
  | .relall => ⟨8, 0xC0, 0xFF⟩

/-- How many bits a code word has, and its value. -/
def CodeWord.value : CodeWord → Nat × Nat
  | .event w => (32, w.toNat)
  | .lineOp b => (8, b.toNat)

/-- The word is one of the row's: it has the row's width, and the row's bits where the row fixes them. -/
def OpcodeRow.holds (r : OpcodeRow) (c : CodeWord) : Bool :=
  c.value.1 == r.nbits && (c.value.2 &&& r.mask) == r.pattern

/-- The REPORT of a report buffer `r` of any length (R73, F-RPT of R75): `LEN = min(n, 15)`, bytes 0 to 2, and nothing of
bytes 3 and up. A byte the buffer does not have is 'any value' (R73): the caller gives it in `fill`. -/
def reportOf (fill : Byte) (r : List Byte) : Instr :=
  .report (BitVec.ofNat 4 (min r.length 15)) (r.getD 0 fill) (r.getD 1 fill) (r.getD 2 fill)

/-- The code word of `nbits` bits with value `w`: 32 bits are an event word, 8 bits a line micro-op, and no other length
exists (R70). -/
def codeWordOf (nbits w : Nat) : Option CodeWord :=
  if nbits = 32 ∧ w < 2 ^ 32 then some (.event (BitVec.ofNat 32 w))
  else if nbits = 8 ∧ w < 2 ^ 8 then some (.lineOp (BitVec.ofNat 8 w))
  else none

/-- The instruction the decoder reads from a word of the opcode table. The table knows every line name of R74, so a
block with both button lines is the one asked. -/
def decodeTableWord (nbits w : Nat) : Option Instr :=
  match codeWordOf nbits w with
  | none => none
  | some c =>
    match decode 2 c with
    | .instr i => some i
    | .illegal _ => none

end Sys2Proof
end

