-- ==== Sys2Proof/Config.lean ====
section
/-! DEFINITION. The implementation parameters of R7: the fixed ones as constants, the others as one record of plain
data that a state carries and no step changes (R36), and the values the spec leaves OPEN as constants with no body. -/

namespace Sys2Proof

/-- How a report's byte 0 reaches the button lines (R7, R185, D9). -/
inductive ButtonMode where
  /-- RELEASED: the button lines are only ever released. -/
  | released
  /-- FROM_REPORT: button bit k drives line Bk. -/
  | fromReport
  deriving DecidableEq, Repr, Inhabited

/-- What FG phase 2 does with a pair (0, 0) (R7, R127, D8). -/
inductive ZeroPolicy where
  /-- SKIP, the default: no publication. -/
  | skip
  /-- PUBLISH_ZERO: a zero frame is published. -/
  | publishZero
  deriving DecidableEq, Repr, Inhabited

/-- How `ROUND` resolves an exact tie (R101, D5, I2). -/
inductive TieRule where
  /-- The default: the integer farther from zero. -/
  | awayFromZero
  /-- `ROUND` taken as a parameter: some nearest integer, which one is not said (`Config.tieGoesUp`). -/
  | anyNearest
  deriving DecidableEq, Repr, Inhabited

/-- `FRAME_LEN` (R7, R8). -/
abbrev Config.frameLen : Nat := 7
/-- `NUM_DATA_LINES` (R7). -/
abbrev Config.numDataLines : Nat := 4
/-- `MIN_REPORT_LEN` (R7). -/
abbrev Config.minReportLen : Nat := 3
/-- `CLAMP_MAX` (R7). -/
abbrev Config.clampMax : Int := 127
/-- `CLAMP_MIN` (R7, C1). -/
abbrev Config.clampMin : Int := -127
/-- The least value of an `ACC_W`-bit signed register, `-2^31` (R7, R10). -/
abbrev Config.accMin : Int := -2147483648
/-- The greatest value of an `ACC_W`-bit signed register, `2^31 - 1` (R7, R10). -/
abbrev Config.accMax : Int := 2147483647

/-- The configuration record of R7. It is fixed for the life of a run (R36). -/
structure Config where
  /-- `NUM_BTN`, in 0..2; OPEN. -/
  numBtn : Fin 3
  /-- `BUTTON_MODE`; OPEN. -/
  buttonMode : ButtonMode
  /-- `ID_NIBBLE`; OPEN. -/
  idNibble : Nibble
  /-- `PAD_NIBBLE`; OPEN. -/
  padNibble : Nibble
  /-- `SCALE`, any rational (R100, D29); default 1. -/
  scale : Rat
  /-- The tie rule of `ROUND` (R101); default ties away from zero. -/
  ties : TieRule
  /-- `ZERO_POLICY`; default SKIP. -/
  zeroPolicy : ZeroPolicy
  /-- `CLK_INIT`, the level on the clock input at power-on; OPEN. -/
  clkInit : Bool
  /-- `T_EMIT_MAX`, in an unnamed unit of time; OPEN. Only the host's duties use it (R240). -/
  tEmitMax : Nat
  /-- `T_DEFER_MAX`, in the same unit; OPEN. Only the host's duties use it (R241). -/
  tDeferMax : Nat
  deriving DecidableEq, Repr

/-- The chip's `NUM_BTN` (OPEN, I6). -/
opaque Config.openNumBtn : Fin 3
/-- The chip's `BUTTON_MODE` (OPEN, I7). -/
opaque Config.openButtonMode : ButtonMode
/-- The chip's `ID_NIBBLE` (OPEN, I4). -/
opaque Config.openIdNibble : Nibble
/-- The chip's `PAD_NIBBLE` (OPEN, I5). -/
opaque Config.openPadNibble : Nibble
/-- The chip's `CLK_INIT` (OPEN, I10). -/
opaque Config.openClkInit : Bool
/-- The chip's `T_EMIT_MAX` (OPEN, I13). -/
opaque Config.openTEmitMax : Nat
/-- The chip's `T_DEFER_MAX` (OPEN, I13). -/
opaque Config.openTDeferMax : Nat

/-- FREE VALUE. Under `TieRule.anyNearest`, whether the tie halfway between `n` and `n + 1` goes up (R101, I2). -/
opaque Config.tieGoesUp (n : Int) : Bool

/-- The configuration of the machine that `State.reset` powers on: R7's defaults where R7 gives one, and constants with
no body where R7 says OPEN. -/
def Config.chip : Config where
  numBtn := Config.openNumBtn
  buttonMode := Config.openButtonMode
  idNibble := Config.openIdNibble
  padNibble := Config.openPadNibble
  scale := 1
  ties := .awayFromZero
  zeroPolicy := .skip
  clkInit := Config.openClkInit
  tEmitMax := Config.openTEmitMax
  tDeferMax := Config.openTDeferMax

end Sys2Proof
end

