-- ==== Sys2Proof/Machine/State.lean ====
section
/-! DEFINITION. The block state (R22), the fault and refusal reasons (R212, R213), and the power-on state (R41, R231).
Plain data throughout. -/

namespace Sys2Proof.Machine

/-- The driver state of one line (R30). -/
inductive Driver where
  /-- LOW: output mode, asserting logic low. -/
  | low
  /-- REL: input mode, no internal pull. -/
  | rel
  deriving DecidableEq, Repr

/-- The foreground agent's phase (R29). -/
inductive FgPhase where
  /-- IDLE: no drained pair is held. -/
  | idle
  /-- PENDING: a drained, clamped pair is held and not yet built. -/
  | pending
  deriving DecidableEq, Repr

/-- An output event (R35). -/
inductive OutEvent where
  /-- RPT_REQ, the request for the next report (R183, R186). -/
  | rptReq
  deriving DecidableEq, Repr

/-- The fault reasons: F1 of R212 is the only one. No step of the machine ENDS in a fault: the spec makes a fault a
sticky mark of the state, and the block goes on (R103, R210). -/
inductive Fault where
  /-- ACC_OVERFLOW: raised by REPORT when a scaled sum would leave the ACC_W-bit signed range (R103). It is recorded in
  `State.faults` and the step goes on to a next state. Safe: a claim takes 'no fault recorded' as its premise (R212, D4). -/
  | accOverflow
  deriving DecidableEq, Repr

/-- The refusal reasons: X1 and X2 of R213 and the host's own. No step of the machine ENDS in a refusal: the spec makes
a refusal a sticky mark of the state, and the block goes on (R192). -/
inductive Refusal where
  /-- ILLEGAL_EVENT: raised at event decode (R78, R192). It is recorded in `State.refusals` and nothing else is written.
  Safe (D18). -/
  | illegalEvent
  /-- ILLEGAL_LINEOP: raised at micro-op decode (R79), or by DRVLO or REL on a line the block does not have. It is
  recorded in `State.refusals` and nothing else is written. Safe (D19). -/
  | illegalLineop
  /-- An instruction with no meaning yet. No instruction is refused so: every arm of `exec` has its meaning. Safe. -/
  | notModelled (mnemonic : String)
  deriving DecidableEq, Repr

/-- The sticky set `faults` (R34, R212): for its one reason, whether it is in the set. -/
structure FaultMarks where
  accOverflow : Bool
  deriving DecidableEq, Repr

/-- The sticky set `refusals` (R34, R213): for each of its two reasons, whether it is in the set. -/
structure RefusalMarks where
  illegalEvent : Bool
  illegalLineop : Bool
  deriving DecidableEq, Repr

/-- The block state: the fields of R22 under their own names, the output log of R35, the configuration record of R7, and
the model's own list of inputs not yet taken. -/
structure State where
  /-- `acc_x`: the running sum of scaled X deltas (R23). -/
  accX : AccWord
  /-- `acc_y`: the running sum of scaled Y deltas (R23). -/
  accY : AccWord
  /-- `dirty`: a sample has been accumulated since the last drain (R24). -/
  dirty : Bool
  /-- `frame[0..6]`: the published frame (R25). -/
  frame : Vector Nibble 7
  /-- `cursor`: the index of the next element to emit, in 0..6 (R26). -/
  cursor : Fin 7
  /-- `active`: a frame is active (R27). -/
  active : Bool
  /-- `connected`: a device is mounted (R28). -/
  connected : Bool
  /-- `fg_phase` (R29). -/
  fgPhase : FgPhase
  /-- `pend_x`: the drained, clamped X delta (R29). -/
  pendX : Int
  /-- `pend_y`: the drained, clamped Y delta (R29). -/
  pendY : Int
  /-- `drv_d[0..3]`: the driver states of D0..D3 (R30). -/
  drvD : Vector Driver 4
  /-- `drv_b[k]`: the driver state of Bk for k < NUM_BTN (R31). An entry with k ≥ NUM_BTN is no line: nothing writes it
  (notes/assumptions/6.md). -/
  drvB : Vector Driver 2
  /-- `clk_level`: the last level sampled on the clock input (R32). -/
  clkLevel : Bool
  /-- `faults`: sticky (R34, R212). -/
  faults : FaultMarks
  /-- `refusals`: sticky (R34, R213). -/
  refusals : RefusalMarks
  /-- `out`: the output log, oldest first (R35). -/
  out : List OutEvent
  /-- The configuration (R7, R36). No step writes it. -/
  cfg : Config
  /-- The MODEL's own: the words the agents have issued and the block has not yet taken, in the order they are taken
  (R51, R52; notes/assumptions/1.md). -/
  inbox : List CodeWord
  deriving DecidableEq, Repr

/-- The power-on state of a block with configuration `c` (R41, R231), with no input waiting. -/
def State.powerOn (c : Config) : State where
  accX := 0
  accY := 0
  dirty := false
  frame := #v[0, 0, 0, 0, 0, 0, 0]
  cursor := 0
  active := false
  connected := false
  fgPhase := .idle
  pendX := 0
  pendY := 0
  drvD := #v[.rel, .rel, .rel, .rel]
  drvB := #v[.rel, .rel]
  clkLevel := c.clkInit
  faults := ⟨false⟩
  refusals := ⟨false, false⟩
  out := []
  cfg := c
  inbox := []

/-- The machine right after power-on (R231). -/
def State.reset : State := State.powerOn Config.chip

end Sys2Proof.Machine
end

