-- ==== Sys2Proof/Machine/Flags.lean ====
section
/-! DEFINITION. The flags (R38: dirty, active, connected), the sticky marks (R34, R212, R213), and the output log (R35).
The block has no condition codes. -/

namespace Sys2Proof.Machine

/-- Write `dirty` (R24). -/
def setDirty (v : Bool) (s : State) : State := { s with dirty := v }

/-- Write `active` (R27). -/
def setActive (v : Bool) (s : State) : State := { s with active := v }

/-- Write `connected` (R28). -/
def setConnected (v : Bool) (s : State) : State := { s with connected := v }

/-- `raise Fault(r)`: add the reason to the sticky fault set (R11, R212). This is the nearest the block has to taking an
exception: nothing else is saved, no mode changes, and the block goes on (R210, R218). -/
def raiseFault (r : Fault) (s : State) : State :=
  match r with
  | .accOverflow => { s with faults := { s.faults with accOverflow := true } }

/-- `refuse(ILLEGAL_EVENT)`: only the mark is written (R11, R192). -/
def refuseEvent (s : State) : State := { s with refusals := { s.refusals with illegalEvent := true } }

/-- `refuse(ILLEGAL_LINEOP)`: only the mark is written (R11, R79). -/
def refuseLineOp (s : State) : State := { s with refusals := { s.refusals with illegalLineop := true } }

/-- The refusal an illegal word gets, by the format it has (R78, R79). -/
def refuseWord (c : CodeWord) (s : State) : State :=
  match c with
  | .event _ => refuseEvent s
  | .lineOp _ => refuseLineOp s

/-- `emit_out(RPT_REQ)`: append the request for the next report to the output log (R35, R183, R186). -/
def requestReport (s : State) : State := { s with out := s.out ++ [.rptReq] }

end Sys2Proof.Machine
end

