-- ==== Sys2Proof/Machine/Operands.lean ====
section
/-! DEFINITION. Operand forms: how the fields of an instruction are read (R57, R73, R77), and the byte and nibble
arithmetic of R10. -/

namespace Sys2Proof.Machine

/-- `sext_8(b)`: a byte as 8-bit two's complement, in [-128, 127] (R10). -/
def sext8 (b : Byte) : Int :=
  if b.toNat < 128 then b.toNat else (b.toNat : Int) - 256

/-- `u8(v) = v mod 256`, the two's-complement 8-bit representation of `v` (R10, R123). -/
def u8 (v : Int) : Byte := BitVec.ofInt 8 v

/-- `hi4(b) = b[7:4]` (R10). -/
def hi4 (b : Byte) : Nibble := b.extractLsb' 4 4

/-- `lo4(b) = b[3:0]` (R10). -/
def lo4 (b : Byte) : Nibble := b.extractLsb' 0 4

/-- The byte `{hi, lo}` (R9). -/
def byteOf (hi lo : Nibble) : Byte := hi ++ lo

/-- `LEN >= MIN_REPORT_LEN`: the report is accepted (R75, R181). -/
def accepted (len : BitVec 4) : Bool := decide (Config.minReportLen ≤ len.toNat)

/-- Button bit k of report byte 0: 1 means pressed (R75, R185). -/
def buttonBit (b0 : Byte) (k : Fin 2) : Bool := b0.getLsbD k.val

/-- Bit i of a nibble, which goes to data line Di (R59). -/
def nibbleBit (n : Nibble) (i : Fin 4) : Bool := n.getLsbD i.val

/-- The driver state that puts a bit on a line: 1 is release, 0 is drive-low (R163). -/
def Driver.ofBit (bit : Bool) : Driver := if bit then .rel else .low

/-- The driver state of a button line under FROM_REPORT: a pressed button (bit = 1) is driven low (R185). -/
def Driver.ofPressed (pressed : Bool) : Driver := if pressed then .low else .rel

end Sys2Proof.Machine
end

