-- ==== Sys2Proof/Machine/Ops.lean ====
section
/-! DEFINITION. The shared operations of the block, each once: the Motion Accumulator (41_accumulator.md), the Saturator
and Frame Builder (42_frame_builder.md), the Logic Line drivers (44_logic_line.md), the Strobe-Driven Emitter
(43_emitter.md), the steps of 45_interface_events.md built from them, and the reset of R230. -/

namespace Sys2Proof.Machine

/-! ### Motion Accumulator -/

/-- The integer nearest to `num / den`, for `den > 0`: the floor when the remainder is below one half, the next integer
when it is above, and at a tie what the tie rule says (R101). -/
def roundFrac (t : TieRule) (num : Int) (den : Nat) : Int :=
  let down := num / (den : Int)
  let rem := num % (den : Int)
  if 2 * rem < den then down
  else if (den : Int) < 2 * rem then down + 1
  else
    match t with
    | .awayFromZero => if 0 ≤ num then down + 1 else down
    | .anyNearest => if Config.tieGoesUp down then down + 1 else down

/-- `ROUND(q)` (R101). -/
def roundQ (t : TieRule) (q : Rat) : Int := roundFrac t q.num q.den

/-- `scale(d) = ROUND(SCALE × d)`, over the exact fraction (R100). -/
def scaleSample (c : Config) (d : Int) : Int := roundFrac c.ties (c.scale.num * d) c.scale.den

/-- `inW(v)`: v fits an `ACC_W`-bit signed register (R10). -/
def inW (v : Int) : Bool := decide (Config.accMin ≤ v) && decide (v ≤ Config.accMax)

/-- ACCUMULATE of a raw delta pair (R102). Where either sum would leave the range, the accumulate is not performed and
ACC_OVERFLOW is raised (R103). -/
def accumulate (dx dy : Int) (s : State) : State :=
  let nx := s.accX.toInt + scaleSample s.cfg dx
  let ny := s.accY.toInt + scaleSample s.cfg dy
  if inW nx && inW ny then
    setDirty true { s with accX := BitVec.ofInt 32 nx, accY := BitVec.ofInt 32 ny }
  else raiseFault .accOverflow s

/-- The accumulator zeroed and its flag cleared: what a drain, UNMOUNT and reset leave (R104, R187, R230). -/
def zeroAccumulator (s : State) : State := setDirty false { s with accX := 0, accY := 0 }

/-- DRAIN: the pair as it stood, and the state after (R104). -/
def drain (s : State) : (Int × Int) × State := ((s.accX.toInt, s.accY.toInt), zeroAccumulator s)

/-! ### Saturator and Frame Builder -/

/-- CLAMP to [-127, 127] (R120). -/
def clamp (v : Int) : Int :=
  if Config.clampMax < v then Config.clampMax else if v < Config.clampMin then Config.clampMin else v

/-- BUILD: [ID, pad, pad, X-high, X-low, Y-high, Y-low] (R76, R125). -/
def build (c : Config) (x y : Int) : Vector Nibble 7 :=
  #v[c.idNibble, c.padNibble, c.padNibble, hi4 (u8 x), lo4 (u8 x), hi4 (u8 y), lo4 (u8 y)]

/-! ### Logic Lines -/

/-- `line[L] <- v` (R160, R161). -/
def setLine (line : Line) (v : Driver) (s : State) : State :=
  match line with
  | .d i => { s with drvD := s.drvD.set i v }
  | .b k => { s with drvB := s.drvB.set k v }

/-- `driveLow` on one line (R160). -/
def driveLow (line : Line) (s : State) : State := setLine line .low s

/-- `release` on one line (R161). -/
def release (line : Line) (s : State) : State := setLine line .rel s

/-- The four data drivers that show a nibble (R163). -/
def nibbleDrivers (n : Nibble) : Vector Driver 4 := Vector.ofFn fun i => Driver.ofBit (nibbleBit n i)

/-- `setNibble`: bit i of the nibble to data line Di; the button lines are not written (R163). -/
def setNibble (n : Nibble) (s : State) : State := { s with drvD := nibbleDrivers n }

/-- Every data line released. -/
def dataReleased : Vector Driver 4 := #v[.rel, .rel, .rel, .rel]

/-- The button drivers after every button line the block has is released. -/
def buttonsReleased (numBtn : Fin 3) (b : Vector Driver 2) : Vector Driver 2 :=
  Vector.ofFn fun k => if k.val < numBtn.val then .rel else b[k]

/-- `releaseAll`: every managed line, data and button (R165). -/
def releaseAll (s : State) : State :=
  { s with drvD := dataReleased, drvB := buttonsReleased s.cfg.numBtn s.drvB }

/-- One line of BUTTON_UPDATE under FROM_REPORT: written when the block has it (R185). -/
def updateButton (b0 : Byte) (k : Fin 2) (s : State) : State :=
  if k.val < s.cfg.numBtn.val then setLine (.b k) (Driver.ofPressed (buttonBit b0 k)) s else s

/-- BUTTON_UPDATE (R185): under RELEASED nothing is written. -/
def buttonUpdate (b0 : Byte) (s : State) : State :=
  match s.cfg.buttonMode with
  | .released => s
  | .fromReport => updateButton b0 1 (updateButton b0 0 s)

/-! ### Publication and emission -/

/-- PUBLISH: the frame replaced wholesale, the cursor at 0, the frame active, and element 0 staged, in one step (R126). -/
def publish (f : Vector Nibble 7) (s : State) : State :=
  setNibble f[0] (setActive true { s with frame := f, cursor := 0 })

/-- The cursor after an emit: `(cursor + 1) mod 7` (R142). -/
def nextCursor (c : Fin 7) : Fin 7 := ⟨(c.val + 1) % Config.frameLen, Nat.mod_lt _ (by decide)⟩

/-- EMIT_ACTIVE: the element under the cursor to the data lines, and the cursor advanced (R142). -/
def emitActive (s : State) : State := { setNibble s.frame[s.cursor] s with cursor := nextCursor s.cursor }

/-- EMIT_IDLE: every line released (R143). -/
def emitIdle (s : State) : State := releaseAll s

/-- EMIT: the frame length is the constant 7, so the test is `active` (R8, R141). -/
def emit (s : State) : State := if s.active then emitActive s else emitIdle s

/-- EDGE_DETECT: a CLK event is an edge when its level differs from the last one, in either direction (R32, R140). -/
def edgeDetect (lvl : Bool) (s : State) : State :=
  if lvl = s.clkLevel then s else emit { s with clkLevel := lvl }

/-! ### The steps of the interface events -/

/-- REPORT_STEP (R181 to R185): an accepted report accumulates and updates the buttons, and every report is followed by
the request for the next. Bytes past byte 2 have no operand and so no effect (R184). -/
def reportStep (len : BitVec 4) (b0 b1 b2 : Byte) (s : State) : State :=
  requestReport (if accepted len then buttonUpdate b0 (accumulate (sext8 b1) (sext8 b2) s) else s)

/-- MOUNT_STEP (R186). -/
def mountStep (s : State) : State := requestReport (setConnected true s)

/-- UNMOUNT_STEP (R187): the lines, the frame and the foreground's pair are not written. -/
def unmountStep (s : State) : State :=
  setConnected false (setActive false { zeroAccumulator s with cursor := 0 })

/-- FG phase 1 (R188): drain and clamp, when there is a sample to drain. -/
def fgPhase1 (s : State) : State :=
  if s.dirty then
    let d := drain s
    { d.2 with pendX := clamp d.1.1, pendY := clamp d.1.2, fgPhase := .pending }
  else s

/-- Whether phase 2 publishes the pair it holds (R127): every pair but (0, 0), and (0, 0) too under PUBLISH_ZERO. -/
def publishesPair (s : State) : Bool :=
  !(decide (s.pendX = 0) && decide (s.pendY = 0) && decide (s.cfg.zeroPolicy = .skip))

/-- FG phase 2 (R189): build and publish, as the zero policy says. -/
def fgPhase2 (s : State) : State :=
  let t := { s with fgPhase := .idle }
  if publishesPair s then publish (build s.cfg s.pendX s.pendY) t else t

/-- FG: the phase selects the step (R180). -/
def fgStep (s : State) : State :=
  match s.fgPhase with
  | .idle => fgPhase1 s
  | .pending => fgPhase2 s

/-- RESET_STEP (R230): `clk_level`, the marks and the output log are unchanged. DESIGN CHOICE: the words issued and not
yet taken are kept and are taken after it, of which R225 and R230 do not speak (notes/assumptions/17.md). -/
def resetStep (s : State) : State :=
  releaseAll
    { zeroAccumulator s with
      frame := #v[0, 0, 0, 0, 0, 0, 0]
      cursor := 0
      active := false
      connected := false
      fgPhase := .idle
      pendX := 0
      pendY := 0 }

/-- A line micro-op on one named line: refused, with no state change, on a line the block does not have (R79). -/
def onLine (line : Line) (op : State → State) (s : State) : State :=
  if line.present s.cfg.numBtn then op s else refuseLineOp s

/-! ### Taking the next input -/

/-- The next word the block takes, and the state without it (R52; notes/assumptions/1.md). -/
def takeInput (s : State) : Option (CodeWord × State) :=
  match s.inbox with
  | [] => none
  | c :: rest => some (c, { s with inbox := rest })

/-- `s` with `c` as the next word it takes. -/
def putInput (c : CodeWord) (s : State) : State := { s with inbox := c :: s.inbox }

end Sys2Proof.Machine
end

