-- ==== Sys2Proof/Machine/Events.lean ====
section
/-! DEFINITION. The meanings of the six event classes (45_interface_events.md), one definition each. Every one completes:
no condition of the block traps (R210). -/

namespace Sys2Proof.Machine

/-- RESET (R191): the reset of R230. -/
def execReset (s : State) : Host.Outcome State Fault Refusal := .next (resetStep s)

/-- MOUNT (R186). -/
def execMount (s : State) : Host.Outcome State Fault Refusal := .next (mountStep s)

/-- UNMOUNT (R187). -/
def execUnmount (s : State) : Host.Outcome State Fault Refusal := .next (unmountStep s)

/-- REPORT LEN, B0, B1, B2 (R181). An overflow is a mark, not a stop (R103). -/
def execReport (len : BitVec 4) (b0 b1 b2 : Byte) (s : State) : Host.Outcome State Fault Refusal :=
  .next (reportStep len b0 b1 b2 s)

/-- FG (R188, R189). -/
def execFg (s : State) : Host.Outcome State Fault Refusal := .next (fgStep s)

/-- CLK LVL (R140, R190). -/
def execClk (lvl : Bool) (s : State) : Host.Outcome State Fault Refusal := .next (edgeDetect lvl s)

end Sys2Proof.Machine
end

