-- ==== Sys2Proof/Machine/LogicLine.lean ====
section
/-! DEFINITION. The meanings of the four line micro-ops (44_logic_line.md), one definition each. -/

namespace Sys2Proof.Machine

/-- DRVLO L (R160). -/
def execDrvlo (line : Line) (s : State) : Host.Outcome State Fault Refusal := .next (onLine line (driveLow line) s)

/-- REL L (R161). -/
def execRel (line : Line) (s : State) : Host.Outcome State Fault Refusal := .next (onLine line (release line) s)

/-- SETNIB n (R163). -/
def execSetnib (n : Nibble) (s : State) : Host.Outcome State Fault Refusal := .next (setNibble n s)

/-- RELALL (R165). -/
def execRelall (s : State) : Host.Outcome State Fault Refusal := .next (releaseAll s)

end Sys2Proof.Machine
end

