-- ==== Sys2Proof/Machine/Dispatch.lean ====
section
/-! DEFINITION. One arm per instruction (R180 for the events, R74 for the micro-ops). -/

namespace Sys2Proof.Machine

def exec (i : Instr) (s : State) : Host.Outcome State Fault Refusal :=
  match i with
  -- event classes (R72)
  | .reset => Sys2Proof.Machine.execReset s
  | .mount => Sys2Proof.Machine.execMount s
  | .unmount => Sys2Proof.Machine.execUnmount s
  | .report len b0 b1 b2 => Sys2Proof.Machine.execReport len b0 b1 b2 s
  | .fg => Sys2Proof.Machine.execFg s
  | .clk lvl => Sys2Proof.Machine.execClk lvl s
  -- line micro-ops (R74)
  | .drvlo line => Sys2Proof.Machine.execDrvlo line s
  | .rel line => Sys2Proof.Machine.execRel line s
  | .setnib n => Sys2Proof.Machine.execSetnib n s
  | .relall => Sys2Proof.Machine.execRelall s

end Sys2Proof.Machine
end

