-- ==== Sys2Proof/Machine/Step.lean ====
section
/-! DEFINITION. One step of the block (R52, R180): it takes the next word of its inbox, decodes it and runs it. -/

namespace Sys2Proof.Machine

/-- One step. An illegal word is refused, which is a mark of the state (R192). With no word waiting no agent issues an
event, and nothing changes (R147; notes/assumptions/1.md). -/
def step (s : State) : Host.Outcome State Fault Refusal :=
  match takeInput s with
  | none => .next s
  | some (c, t) =>
    match Sys2Proof.decode t.cfg.numBtn c with
    | .instr i => exec i t
    | .illegal _ => .next (refuseWord c t)

/-- `s` with the word of `nbits` bits and value `w` as the next input the block takes. A width that no format has (R70)
puts nothing. -/
def State.withFetchWord (s : State) (nbits w : Nat) : State :=
  match Sys2Proof.codeWordOf nbits w with
  | some c => putInput c s
  | none => s

end Sys2Proof.Machine
end

