-- ==== Sys2Proof/Machine/Assembler.lean ====
section
/-! DEFINITION. The assembler syntax (R81) and the pseudo-instructions (R82), over a source line as a list of characters.
Nothing of the machine depends on it. -/

namespace Sys2Proof.Machine

/-- The first words of a source line (R81, R82). -/
inductive Keyword where
  | reset | mount | unmount | report | fg | clk
  | drvlo | rel | setnib | relall
  | move | moveb | update | edge | strobe | short
  deriving DecidableEq, Repr

/-- A keyword's spelling, in capitals (R81: mnemonics are case-insensitive). -/
def Keyword.spelling : Keyword → List Char
  | .reset => ['R', 'E', 'S', 'E', 'T']
  | .mount => ['M', 'O', 'U', 'N', 'T']
  | .unmount => ['U', 'N', 'M', 'O', 'U', 'N', 'T']
  | .report => ['R', 'E', 'P', 'O', 'R', 'T']
  | .fg => ['F', 'G']
  | .clk => ['C', 'L', 'K']
  | .drvlo => ['D', 'R', 'V', 'L', 'O']
  | .rel => ['R', 'E', 'L']
  | .setnib => ['S', 'E', 'T', 'N', 'I', 'B']
  | .relall => ['R', 'E', 'L', 'A', 'L', 'L']
  | .move => ['M', 'O', 'V', 'E']
  | .moveb => ['M', 'O', 'V', 'E', 'B']
  | .update => ['U', 'P', 'D', 'A', 'T', 'E']
  | .edge => ['E', 'D', 'G', 'E']
  | .strobe => ['S', 'T', 'R', 'O', 'B', 'E']
  | .short => ['S', 'H', 'O', 'R', 'T']

/-- Every keyword. -/
def Keyword.all : List Keyword :=
  [.reset, .mount, .unmount, .report, .fg, .clk, .drvlo, .rel, .setnib, .relall,
    .move, .moveb, .update, .edge, .strobe, .short]

/-- The keyword with this spelling, the word being in capitals. -/
def keywordOf (word : List Char) : Option Keyword := Keyword.all.find? fun k => k.spelling == word

/-- A small letter in capitals; any other character as it is. -/
def capital (c : Char) : Char :=
  if 97 ≤ c.toNat ∧ c.toNat ≤ 122 then Char.ofNat (c.toNat - 32) else c

/-- The line without the spaces at its two ends. -/
def trim (cs : List Char) : List Char :=
  ((cs.dropWhile (· == ' ')).reverse.dropWhile (· == ' ')).reverse

/-- The parts of a line between commas. -/
def splitCommas : List Char → List (List Char)
  | [] => [[]]
  | c :: cs =>
    if c = ',' then [] :: splitCommas cs
    else
      match splitCommas cs with
      | [] => [[c]]
      | p :: ps => (c :: p) :: ps

/-- The value of one digit in a base up to 16, letters in capitals. -/
def digitOf (base : Nat) (c : Char) : Option Nat :=
  let v := if 48 ≤ c.toNat ∧ c.toNat ≤ 57 then c.toNat - 48
    else if 65 ≤ c.toNat ∧ c.toNat ≤ 70 then c.toNat - 55 else base
  if v < base then some v else none

/-- The digits of a number, most significant first, onto the value read so far. -/
def digitsFrom (base : Nat) : Nat → List Char → Option Nat
  | acc, [] => some acc
  | acc, c :: cs =>
    match digitOf base c with
    | some v => digitsFrom base (acc * base + v) cs
    | none => none

/-- An operand without sign: decimal, `0x` hexadecimal or `0b` binary (R81), in capitals here. -/
def unsignedOf : List Char → Option Nat
  | '0' :: 'X' :: c :: cs => digitsFrom 16 0 (c :: cs)
  | '0' :: 'B' :: c :: cs => digitsFrom 2 0 (c :: cs)
  | c :: cs => digitsFrom 10 0 (c :: cs)
  | [] => none

/-- An operand with an optional sign. -/
def signedOf : List Char → Option Int
  | '-' :: cs => (unsignedOf cs).map fun n => -(n : Int)
  | cs => (unsignedOf cs).map fun n => (n : Int)

/-- A byte operand: 0..255, or signed -128..127, assembled as `u8(v)` (R81). -/
def byteOperand (cs : List Char) : Option Byte :=
  match signedOf cs with
  | some v => if -128 ≤ v ∧ v ≤ 255 then some (u8 v) else none
  | none => none

/-- A delta operand of MOVE or MOVEB: -128..127 (R82), assembled as `u8(v)`. -/
def deltaOperand (cs : List Char) : Option Byte :=
  match signedOf cs with
  | some v => if -128 ≤ v ∧ v ≤ 127 then some (u8 v) else none
  | none => none

/-- A line operand: one of D0, D1, D2, D3, B0, B1 (R81). -/
def lineOperand : List Char → Option Line
  | ['D', '0'] => some (.d 0)
  | ['D', '1'] => some (.d 1)
  | ['D', '2'] => some (.d 2)
  | ['D', '3'] => some (.d 3)
  | ['B', '0'] => some (.b 0)
  | ['B', '1'] => some (.b 1)
  | _ => none

/-- The saturated length `min(n, 15)` (R73, R81). -/
def lenOf (n : Nat) : BitVec 4 := BitVec.ofNat 4 (min n 15)

/-- `STROBE k` from level `lvl`: k edges of alternating level (R82). -/
def strobe : Nat → Bool → List Instr
  | 0, _ => []
  | k + 1, lvl => .clk (!lvl) :: strobe k (!lvl)

/-- The level the assembler tracks after a list of instructions (R82): that of the last CLK. -/
def levelAfter (lvl : Bool) : List Instr → Bool
  | [] => lvl
  | .clk v :: is => levelAfter v is
  | _ :: is => levelAfter lvl is

/-- The instructions one keyword with its operands stands for; `lvl` is the clock level the assembler tracks (R81, R82). -/
def expand (lvl : Bool) : Keyword → List (List Char) → Option (List Instr)
  | .reset, [] => some [.reset]
  | .mount, [] => some [.mount]
  | .unmount, [] => some [.unmount]
  | .report, [n, b0, b1, b2] => do
    some [.report (lenOf (← unsignedOf n)) (← byteOperand b0) (← byteOperand b1) (← byteOperand b2)]
  | .fg, [] => some [.fg]
  | .clk, [v] => do
    let n ← unsignedOf v
    if n ≤ 1 then some [.clk (n == 1)] else none
  | .drvlo, [l] => do some [.drvlo (← lineOperand l)]
  | .rel, [l] => do some [.rel (← lineOperand l)]
  | .setnib, [v] => do
    let n ← unsignedOf v
    if n ≤ 15 then some [.setnib (BitVec.ofNat 4 n)] else none
  | .relall, [] => some [.relall]
  | .move, [dx, dy] => do some [.report 3 0 (← deltaOperand dx) (← deltaOperand dy)]
  | .moveb, [b, dx, dy] => do some [.report 3 (← byteOperand b) (← deltaOperand dx) (← deltaOperand dy)]
  | .update, [] => some [.fg, .fg]
  | .edge, [] => some (strobe 1 lvl)
  | .strobe, [v] => do some (strobe (← unsignedOf v) lvl)
  | .short, [v] => do
    let n ← unsignedOf v
    if n ≤ 2 then some [.report (lenOf n) 0 0 0] else none
  | _, _ => none

/-- One source line (R81): a keyword, then its operands between commas. -/
def assembleLine (lvl : Bool) (line : List Char) : Option (List Instr) := do
  let cs := trim (line.map capital)
  let word := cs.takeWhile (· != ' ')
  let rest := trim (cs.drop word.length)
  let k ← keywordOf word
  expand lvl k (if rest = [] then [] else (splitCommas rest).map trim)

/-- A source program, one event per line (R81), from the clock level `CLK_INIT` (R82). -/
def assemble (lvl : Bool) : List (List Char) → Option (List Instr)
  | [] => some []
  | line :: lines => do
    let is ← assembleLine lvl line
    let more ← assemble (levelAfter lvl is) lines
    some (is ++ more)

end Sys2Proof.Machine
end

