-- ==== Sys2Proof/Machine/Observation.lean ====
section
/-! DEFINITION. What stands outside the block can see of a state: the wire levels of the lines (R164), the system states
(R33), and the agent that issues an event (R51). Nothing here writes a state. -/

namespace Sys2Proof.Machine

/-- What lies on one wire outside the block: whether the external pull-up is fitted, whether another party pulls the wire
low, and the level the wire has where the spec states none (R164, I14). -/
structure Outside where
  pullup : Bool
  otherPullsLow : Bool
  level : Bool
  deriving DecidableEq, Repr

/-- The premise `EXT_PULLUP`: the pull-up is present and no other party drives the wire low (R164, D20). -/
def Outside.extPullup (e : Outside) : Bool := e.pullup && !e.otherPullsLow

/-- The wire level of a line (R164): 0 when driven low, 1 when released under the premise, and any value otherwise. -/
def Driver.wireIn (e : Outside) : Driver → Bool
  | .low => false
  | .rel => if e.extPullup then true else e.level

/-- The wire level of a line under the premise of R164. -/
def Driver.wire (d : Driver) : Bool := d.wireIn ⟨true, false, false⟩

/-- The data wire nibble `wire_d = {wire(D3), wire(D2), wire(D1), wire(D0)}` (R164). -/
def State.wireD (s : State) : Nibble :=
  BitVec.ofBool s.drvD[3].wire ++ BitVec.ofBool s.drvD[2].wire ++ BitVec.ofBool s.drvD[1].wire
    ++ BitVec.ofBool s.drvD[0].wire

/-- The driver of button line Bk, when the block has that line (R31). -/
def State.button (s : State) (k : Fin 2) : Option Driver :=
  if k.val < s.cfg.numBtn.val then some s.drvB[k] else none

/-- Idle (R33). -/
def State.idle (s : State) : Bool :=
  !s.connected && decide (s.accX = 0) && decide (s.accY = 0) && !s.active

/-- Streaming (R33). -/
def State.streaming (s : State) : Bool := s.connected

/-- Transmitting (R33). It can hold together with Streaming. -/
def State.transmitting (s : State) : Bool := s.active

/-- The agents that drive the block (R51). -/
inductive Agent where
  /-- RPT, the USB report callback context. -/
  | rpt
  /-- USB, the collaborator's notification path. -/
  | usb
  /-- FG, the foreground loop. -/
  | fg
  /-- EDGE, the edge-triggered handler. -/
  | edge
  /-- PWR, the power supply. -/
  | pwr
  deriving DecidableEq, Repr

/-- The agent that issues an event (R51); a line micro-op is issued by none of them (R74). -/
def agentOf : Instr → Option Agent
  | .reset => some .pwr
  | .mount => some .usb
  | .unmount => some .usb
  | .report _ _ _ _ => some .rpt
  | .fg => some .fg
  | .clk _ => some .edge
  | .drvlo _ => none
  | .rel _ => none
  | .setnib _ => none
  | .relall => none

end Sys2Proof.Machine
end

