-- ==== Sys2Proof/Safety.lean ====
section
/-! DEFINITION. The terms claims are stated in: what a step is about to do, the invariants of R39 and R40, the sums of
R39 I-SUM, the duties of the outside world (R240, R241, R244), and the words R78 and R79 call illegal, each written from
its rule and not from the machine's code. -/

namespace Sys2Proof.Safety

open Sys2Proof.Machine

/-- `k` steps from `s` end in `t`. -/
def runs (k : Nat) (s t : State) : Prop := Host.Core.run Sys2Proof.core k s = .next t

/-- No fault is recorded: the premise of a claim about the block (R212). -/
abbrev faultFree (s : State) : Prop := s.faults.accOverflow = false

/-! ### Legality of words -/

/-- The event words R78 calls illegal: a reserved `EV` (bits 31:28), or a must-be-zero bit of the class (R72) set. -/
abbrev illegalEventWord (w : EventWord) : Prop :=
  let ev := w.toNat / 2 ^ 28
  let low := w.toNat % 2 ^ 28
  ev = 0 ∨ 7 ≤ ev ∨ ((ev = 1 ∨ ev = 2 ∨ ev = 3 ∨ ev = 5) ∧ low ≠ 0) ∨ (ev = 6 ∧ low / 2 ≠ 0)

/-- The line micro-ops R79 calls illegal on a block with `numBtn` button lines: a must-be-zero bit of the `OP` (bits 7:6)
set, a `LINE` of 6 or 7, or a `LINE` of 4 + k with k ≥ NUM_BTN. -/
abbrev illegalLineOp (numBtn : Fin 3) (b : OpByte) : Prop :=
  let op := b.toNat / 64
  (op ≤ 1 ∧ (b.toNat % 64 / 8 ≠ 0 ∨ 6 ≤ b.toNat % 8 ∨ 4 + numBtn.val ≤ b.toNat % 8)) ∨
    (op = 2 ∧ b.toNat % 64 / 16 ≠ 0) ∨ (op = 3 ∧ b.toNat % 64 ≠ 0)

/-! ### What the next step is -/

/-- The instruction the next step runs: none when no word waits or the next one is illegal. -/
def nextInstr (s : State) : Option Instr :=
  match s.inbox with
  | [] => none
  | c :: _ =>
    match Sys2Proof.decode s.cfg.numBtn c with
    | .instr i => some i
    | .illegal _ => none

/-- The word is an event word: no agent issues a line micro-op (R51, R74). -/
def isEventWord : CodeWord → Bool
  | .event _ => true
  | .lineOp _ => false

/-- Only event words wait: the block as its agents drive it. -/
abbrev eventsOnly (s : State) : Prop := ∀ c ∈ s.inbox, isEventWord c = true

/-- The next step is a CLK edge (R32). -/
def edgeNext (s : State) : Bool :=
  match nextInstr s with
  | some (.clk lvl) => lvl != s.clkLevel
  | _ => false

/-- The next step is a publication: FG phase 2 of a pair that R127 publishes. -/
def publicationNext (s : State) : Bool :=
  decide (nextInstr s = some .fg) && decide (s.fgPhase = .pending) &&
    !(decide (s.pendX = 0) && decide (s.pendY = 0) && decide (s.cfg.zeroPolicy = .skip))

/-- The next step is no publication, no UNMOUNT, no RESET and no line micro-op given from outside. -/
def keepsFrame (s : State) : Bool :=
  !publicationNext s &&
    match nextInstr s with
    | none => true
    | some .reset => false
    | some .mount => true
    | some .unmount => false
    | some (.report _ _ _ _) => true
    | some .fg => true
    | some (.clk _) => true
    | some (.drvlo _) => false
    | some (.rel _) => false
    | some (.setnib _) => false
    | some .relall => false

/-- Every state of the first `k` steps from `s`, the last one left out, meets `p`. -/
def during (p : State → Bool) (k : Nat) (s : State) : Prop :=
  ∀ j < k, ∀ u, runs j s u → p u = true

/-- How many of the first `k` steps from `s` are CLK edges. -/
def edgesIn : Nat → State → Nat
  | 0, _ => 0
  | k + 1, s =>
    (if edgeNext s then 1 else 0) +
      match step s with
      | .next t => edgesIn k t
      | .fault _ => 0
      | .refused _ => 0

/-! ### The sums of I-SUM (R39) -/

/-- The pair of sums after the next step: an accepted report adds its scaled sample, and a drain, UNMOUNT or RESET starts
anew (R39 I-SUM, R54). -/
def sumsAfter (s : State) (sums : Int × Int) : Int × Int :=
  match nextInstr s with
  | none => sums
  | some .reset => (0, 0)
  | some .mount => sums
  | some .unmount => (0, 0)
  | some (.report len _ b1 b2) =>
    if 3 ≤ len.toNat then
      (sums.1 + scaleSample s.cfg (sext8 b1), sums.2 + scaleSample s.cfg (sext8 b2))
    else sums
  | some .fg => if s.fgPhase = .idle ∧ s.dirty = true then (0, 0) else sums
  | some (.clk _) => sums
  | some (.drvlo _) => sums
  | some (.rel _) => sums
  | some (.setnib _) => sums
  | some .relall => sums

/-- The pair of sums over the first `k` steps from `s`, beginning with `sums`. -/
def sumsOver : Nat → State → Int × Int → Int × Int
  | 0, _, sums => sums
  | k + 1, s, sums =>
    match step s with
    | .next t => sumsOver k t (sumsAfter s sums)
    | .fault _ => sums
    | .refused _ => sums

/-! ### Invariants -/

/-- The invariants of R39 that a state can be asked on its own (I-CUR is the type of `cursor`; I-SUM speaks of a run), and
the model's own: an entry of `drv_b` that is no line of the block stays released. -/
structure Invariants (s : State) : Prop where
  /-- I-DIRTY. -/
  dirty : s.dirty = false → s.accX = 0 ∧ s.accY = 0
  /-- I-PEND. -/
  pend : s.fgPhase = .pending → -127 ≤ s.pendX ∧ s.pendX ≤ 127 ∧ -127 ≤ s.pendY ∧ s.pendY ≤ 127
  /-- I-FRAME. -/
  frame : s.active = true →
    s.frame[0] = s.cfg.idNibble ∧ s.frame[1] = s.cfg.padNibble ∧ s.frame[2] = s.cfg.padNibble
  /-- The model's own (notes/assumptions/6.md). -/
  absent : ∀ k : Fin 2, s.cfg.numBtn.val ≤ k.val → s.drvB[k] = .rel

/-- The driver of data line Di shows bit i of the nibble: REL for 1, LOW for 0 (R163). -/
def showsNibble (d : Vector Driver 4) (n : Nibble) : Prop :=
  ∀ i : Fin 4, d[i] = if n.getLsbD i.val then .rel else .low

/-- Every data line is REL. -/
def dataIdle (d : Vector Driver 4) : Prop := ∀ i : Fin 4, d[i] = .rel

/-- R40: the data lines show an element of the frame or are idle, and under BUTTON_MODE = RELEASED every button line is
released. -/
structure LineSet (s : State) : Prop where
  data : (∃ i : Fin 7, showsNibble s.drvD s.frame[i]) ∨ dataIdle s.drvD
  buttons : s.cfg.buttonMode = .released → ∀ k : Fin 2, s.drvB[k] = .rel

/-- The state with everything about buttons taken out: the button lines, their number and their mode. -/
def withoutButtons (s : State) : State :=
  { s with drvB := #v[.rel, .rel], cfg := { s.cfg with numBtn := 0, buttonMode := .released } }

/-! ### Who writes which field (R37) -/

/-- The fields of R22, the output log and the configuration. -/
inductive Field where
  | accX | accY | dirty | frame | cursor | active | connected | fgPhase | pendX | pendY | drvD | drvB | clkLevel
  | faults | refusals | out | cfg
  deriving DecidableEq, Repr

/-- The field has the same value in both states. -/
def Field.same (s t : State) : Field → Prop
  | .accX => t.accX = s.accX
  | .accY => t.accY = s.accY
  | .dirty => t.dirty = s.dirty
  | .frame => t.frame = s.frame
  | .cursor => t.cursor = s.cursor
  | .active => t.active = s.active
  | .connected => t.connected = s.connected
  | .fgPhase => t.fgPhase = s.fgPhase
  | .pendX => t.pendX = s.pendX
  | .pendY => t.pendY = s.pendY
  | .drvD => t.drvD = s.drvD
  | .drvB => t.drvB = s.drvB
  | .clkLevel => t.clkLevel = s.clkLevel
  | .faults => t.faults = s.faults
  | .refusals => t.refusals = s.refusals
  | .out => t.out = s.out
  | .cfg => t.cfg = s.cfg

/-- R37's table, row by row, for the event classes: whether the rule lists the event as a writer of the field. MOUNT and
UNMOUNT share a column there; the rules it cites (R186, R187) tell them apart. Its RESET column cites R41, which leaves
`clk_level` unchanged by a RESET event. The marks and the log are R34's and R35's. -/
def listedWriter : Instr → Field → Bool
  | .report _ _ _ _, f => f ∈ [.accX, .accY, .dirty, .drvB, .faults, .out]
  | .fg, f => f ∈ [.accX, .accY, .dirty, .frame, .cursor, .active, .fgPhase, .pendX, .pendY, .drvD]
  | .clk _, f => f ∈ [.cursor, .drvD, .drvB, .clkLevel]
  | .mount, f => f ∈ [.connected, .out]
  | .unmount, f => f ∈ [.accX, .accY, .dirty, .cursor, .active, .connected]
  | .reset, f =>
    f ∈ [.accX, .accY, .dirty, .frame, .cursor, .active, .connected, .fgPhase, .pendX, .pendY, .drvD, .drvB]
  | .drvlo _, f => f ∈ [.drvD, .drvB, .refusals]
  | .rel _, f => f ∈ [.drvD, .drvB, .refusals]
  | .setnib _, f => f ∈ [.drvD]
  | .relall, f => f ∈ [.drvD, .drvB]

/-! ### Duties of the outside world: premises of a run, not steps of the block -/

/-- R241: the host keeps successive edges at least `T_DEFER_MAX` apart. `times` are the times of the edges, in order. -/
def edgesSpaced (c : Config) : List Nat → Bool
  | [] => true
  | [_] => true
  | t :: u :: rest => decide (t + c.tDeferMax ≤ u) && edgesSpaced c (u :: rest)

/-- R240: the host samples the data lines no sooner than `T_EMIT_MAX` after the edge. -/
def sampledSettled (c : Config) (edge sample : Nat) : Bool := decide (edge + c.tEmitMax ≤ sample)

/-- R244: the USB collaborator sends no REPORT without an outstanding RPT_REQ. `n` requests are outstanding before the
instructions; a MOUNT asks for one, and a REPORT answers one and asks for the next. DESIGN CHOICE: a request stays
outstanding across UNMOUNT and RESET, of which R244 does not speak (notes/assumptions/16.md). -/
def reportsPaced : Nat → List Instr → Bool
  | _, [] => true
  | n, .mount :: is => reportsPaced (n + 1) is
  | 0, .report _ _ _ _ :: _ => false
  | n + 1, .report _ _ _ _ :: is => reportsPaced (n + 1) is
  | n, .reset :: is => reportsPaced n is
  | n, .unmount :: is => reportsPaced n is
  | n, .fg :: is => reportsPaced n is
  | n, .clk _ :: is => reportsPaced n is
  | n, .drvlo _ :: is => reportsPaced n is
  | n, .rel _ :: is => reportsPaced n is
  | n, .setnib _ :: is => reportsPaced n is
  | n, .relall :: is => reportsPaced n is

/-- R232: the launch premise, steps 1 and 2, of a run: the state is the power-on state of some configuration, whatever
the agents go on to issue, and only they issue words. Steps 3 to 5 are facts of the platform. -/
def launched (s : State) : Prop := s = { State.powerOn s.cfg with inbox := s.inbox } ∧ eventsOnly s

end Sys2Proof.Safety
end

