-- ==== Sys2Proof/Certificates/Slice0/Obligations.lean ====
section
/-! DEFINITION. The statements for the provers. Each docstring names the rule of spec/ it formalises, or says that it is
derived and from what. -/

open Sys2Proof Sys2Proof.Machine Sys2Proof.Safety

/-! ## Encoding -/

/-- R70 to R77: no bit of an encoding is dropped. -/
def Obligations.EncodedInstructionDecodesBack : Prop :=
  ∀ (numBtn : Fin 3) (i : Instr), i.wf numBtn = true → decode numBtn (encode i) = .instr i

/-- R71 to R74: a legal word has one meaning, and the block has the line it names. -/
def Obligations.DecodedWordEncodesBack : Prop :=
  ∀ (numBtn : Fin 3) (c : CodeWord) (i : Instr), decode numBtn c = .instr i → encode i = c ∧ i.wf numBtn = true

/-- R80: decoding is total, each decoder stays in its own format, a word decodes to the one row of the opcode table it
is a word of, and the table's masks and matches do not overlap. -/
def Obligations.DecodingFollowsTheOpcodeTable : Prop :=
  (∀ numBtn c, (∃ i, decode numBtn c = .instr i) ∨ ∃ e, decode numBtn c = .illegal e) ∧
  (∀ w i, decodeEvent w = .instr i → i.row.nbits = 32 ∧ (agentOf i).isSome = true) ∧
  (∀ numBtn b i, decodeLineOp numBtn b = .instr i → i.row.nbits = 8 ∧ agentOf i = none) ∧
  (∀ numBtn c i, decode numBtn c = .instr i → i.row.holds c = true) ∧
  (∀ (i j : Instr) (c : CodeWord), i.row.holds c = true → j.row.holds c = true → i.row = j.row)

/-- R78, R192: which event words are illegal, and what an illegal one does: ILLEGAL_EVENT is marked, no other field is
written, and nothing is added to `out`. R192's four examples are among them. -/
def Obligations.IllegalEventWordsOnlyMark : Prop :=
  (∀ w, (∃ e, decodeEvent w = .illegal e) ↔ illegalEventWord w) ∧
  (∀ (s : State) w rest, s.inbox = .event w :: rest → illegalEventWord w →
    step s = .next { s with inbox := rest, refusals := { s.refusals with illegalEvent := true } }) ∧
  (∀ w ∈ [0x00000000#32, 0x70000000#32, 0x10000001#32, 0x60000002#32], illegalEventWord w)

/-- R79: which line micro-ops are illegal, that a given one is marked with no other change, and that no event class ever
puts the mark ILLEGAL_LINEOP. -/
def Obligations.IllegalLineOpsOnlyMark : Prop :=
  (∀ numBtn b, (∃ e, decodeLineOp numBtn b = .illegal e) ↔ illegalLineOp numBtn b) ∧
  (∀ (s : State) b rest, s.inbox = .lineOp b :: rest → illegalLineOp s.cfg.numBtn b →
    step s = .next { s with inbox := rest, refusals := { s.refusals with illegalLineop := true } }) ∧
  (∀ i s t, (agentOf i).isSome = true → exec i s = .next t → t.refusals.illegalLineop = s.refusals.illegalLineop)

/-- R83: the worked encodings, from source line to word. -/
def Obligations.WorkedEncodingsAssemble : Prop :=
  ∀ lvl, [
    assembleLine lvl "RESET".toList, assembleLine lvl "MOUNT".toList, assembleLine lvl "UNMOUNT".toList,
    assembleLine lvl "MOVE 3, 0".toList, assembleLine lvl "MOVE -1, 1".toList,
    assembleLine lvl "REPORT 4, 0x01, 127, -128".toList, assembleLine lvl "SHORT 2".toList,
    assembleLine lvl "FG".toList, assembleLine lvl "CLK 1".toList, assembleLine lvl "CLK 0".toList,
    assembleLine lvl "SETNIB 0xA".toList, assembleLine lvl "DRVLO D2".toList, assembleLine lvl "REL B1".toList,
    assembleLine lvl "RELALL".toList].map (Option.map (List.map encode)) =
  [.event 0x10000000, .event 0x20000000, .event 0x30000000, .event 0x43000300, .event 0x4300FF01, .event 0x44017F80,
    .event 0x42000000, .event 0x50000000, .event 0x60000001, .event 0x60000000,
    .lineOp 0x8A, .lineOp 0x02, .lineOp 0x45, .lineOp 0xC0].map (fun c : CodeWord => some [c])

/-- R82, the expansions: MOVE, MOVEB, UPDATE, EDGE, STROBE and SHORT on every operand text that reads as a value in the
rule's range, and STROBE's levels alternating from the tracked one. -/
def Obligations.PseudoInstructionsExpand : Prop :=
  ∀ lvl,
    (∀ tx ty x y, deltaOperand tx = some x → deltaOperand ty = some y →
      expand lvl .move [tx, ty] = some [.report 3 0 x y]) ∧
    (∀ tb tx ty b x y, byteOperand tb = some b → deltaOperand tx = some x → deltaOperand ty = some y →
      expand lvl .moveb [tb, tx, ty] = some [.report 3 b x y]) ∧
    expand lvl .update [] = some [.fg, .fg] ∧
    expand lvl .edge [] = some [.clk (!lvl)] ∧
    (∀ tk k, unsignedOf tk = some k → ∃ is, expand lvl .strobe [tk] = some is ∧ is.length = k ∧
      ∀ j < k, is[j]? = some (.clk (lvl ^^ decide (j % 2 = 0)))) ∧
    (∀ tn n, unsignedOf tn = some n → n ≤ 2 →
      expand lvl .short [tn] = some [.report (BitVec.ofNat 4 n) 0 0 0])

/-- R184: bytes 3 and up of a report have no effect. Two report buffers of at least 3 bytes that agree on bytes 0 to 2 do
the same, whatever their lengths and their other bytes. -/
def Obligations.BytesBeyondByteTwoAreIgnored : Prop :=
  ∀ (f g : Byte) (r q : List Byte) (s : State), 3 ≤ r.length → 3 ≤ q.length → r.take 3 = q.take 3 →
    exec (reportOf f r) s = exec (reportOf g q) s

/-! ## The step -/

/-- R180: the dispatch of one event word, FG by its phase. -/
def Obligations.StepDispatchesTheEventWord : Prop :=
  ∀ (s : State) w rest, s.inbox = .event w :: rest →
    let u := { s with inbox := rest }
    (∀ e, decodeEvent w = .illegal e → step s = .next (refuseEvent u)) ∧
    (decodeEvent w = .instr .reset → step s = .next (resetStep u)) ∧
    (decodeEvent w = .instr .mount → step s = .next (mountStep u)) ∧
    (decodeEvent w = .instr .unmount → step s = .next (unmountStep u)) ∧
    (∀ len b0 b1 b2, decodeEvent w = .instr (.report len b0 b1 b2) → step s = .next (reportStep len b0 b1 b2 u)) ∧
    (decodeEvent w = .instr .fg → step s = .next (if s.fgPhase = .idle then fgPhase1 u else fgPhase2 u)) ∧
    (∀ lvl, decodeEvent w = .instr (.clk lvl) → step s = .next (edgeDetect lvl u))

/-- A step is exec of the instruction the next word decodes to, the word being taken from the inbox first; with no word
waiting nothing changes (derived: R52, R147, R180; the inbox is the model's own, notes/assumptions/1.md). -/
def Obligations.StepRunsTheDecodedInstruction : Prop :=
  (∀ (s : State) c rest i, s.inbox = c :: rest → decode s.cfg.numBtn c = .instr i →
    step s = exec i { s with inbox := rest }) ∧
  (∀ s : State, s.inbox = [] → step s = .next s)

/-- The word put for the next fetch is the one the next step runs, and it runs in the state it was put into (derived:
R180; notes/assumptions/1.md). -/
def Obligations.FetchedWordRuns : Prop :=
  ∀ (s : State) nbits w c i, codeWordOf nbits w = some c → decode s.cfg.numBtn c = .instr i →
    step (s.withFetchWord nbits w) = exec i s

/-- R210, R220: no condition stops the block. From every state, any number of steps answers a next state (derived). -/
def Obligations.NoRunEverStops : Prop :=
  ∀ (k : Nat) (s : State), ∃ t, runs k s t

/-- Words written out from R71 to R74 decode to the instruction they stand for (derived: R71, R72, R73, R74). -/
def Obligations.WrittenWordsDecode : Prop :=
  decodeEvent 0b00010000000000000000000000000000 = .instr .reset ∧
  decodeEvent 0b00100000000000000000000000000000 = .instr .mount ∧
  decodeEvent 0b00110000000000000000000000000000 = .instr .unmount ∧
  decodeEvent 0b01000011000000010000010111111110 = .instr (.report 3 0x01 0x05 0xFE) ∧
  decodeEvent 0b01010000000000000000000000000000 = .instr .fg ∧
  decodeEvent 0b01100000000000000000000000000001 = .instr (.clk true) ∧
  decodeLineOp 2 0b00000010 = .instr (.drvlo (.d 2)) ∧
  decodeLineOp 2 0b01000101 = .instr (.rel (.b 1)) ∧
  decodeLineOp 2 0b10001010 = .instr (.setnib 0xA) ∧
  decodeLineOp 2 0b11000000 = .instr .relall

/-! ## Reset -/

/-- R230: the encoding of RESET, what it writes in every state, and that `clk_level`, the marks and `out` are
unchanged (derived: R36, R230). That the waiting words are kept is the model's choice (notes/assumptions/17.md). -/
def Obligations.ResetClearsTheBlock : Prop :=
  decodeEvent 0x10000000 = .instr .reset ∧
  ∀ s, ∃ t, exec .reset s = .next t ∧
    t.accX = 0 ∧ t.accY = 0 ∧ t.dirty = false ∧
    (∀ i : Fin 7, t.frame[i] = 0) ∧ t.cursor = 0 ∧ t.active = false ∧ t.connected = false ∧
    t.fgPhase = .idle ∧ t.pendX = 0 ∧ t.pendY = 0 ∧
    (∀ i : Fin 4, t.drvD[i] = .rel) ∧
    (∀ k : Fin 2, t.drvB[k] = if k.val < s.cfg.numBtn.val then .rel else s.drvB[k]) ∧
    t.clkLevel = s.clkLevel ∧ t.faults = s.faults ∧ t.refusals = s.refusals ∧ t.out = s.out ∧
    t.cfg = s.cfg ∧ t.inbox = s.inbox

/-- R191: the encoding of RESET, and that from any state it gives the power-on state of R41 with the marks, the log and
the clock level kept, in a state whose absent button entries are released (the model's own invariant,
notes/assumptions/6.md). That the waiting words are kept is the model's choice (notes/assumptions/17.md). -/
def Obligations.ResetGivesThePowerOnState : Prop :=
  decodeEvent 0x10000000 = .instr .reset ∧
  ∀ s, (∀ k : Fin 2, s.cfg.numBtn.val ≤ k.val → s.drvB[k] = .rel) →
    exec .reset s = .next { State.powerOn s.cfg with
      clkLevel := s.clkLevel, faults := s.faults, refusals := s.refusals, out := s.out, inbox := s.inbox }

/-- R231 with R41: the power-on state, which is Idle. -/
def Obligations.PowerOnStateIsIdle : Prop :=
  State.reset = State.powerOn Config.chip ∧
  ∀ c, let s := State.powerOn c
    s.accX = 0 ∧ s.accY = 0 ∧ s.dirty = false ∧ (∀ i : Fin 7, s.frame[i] = 0) ∧ s.cursor = 0 ∧ s.active = false ∧
    s.connected = false ∧ s.fgPhase = .idle ∧ s.pendX = 0 ∧ s.pendY = 0 ∧
    (∀ i : Fin 4, s.drvD[i] = .rel) ∧ (∀ k : Fin 2, s.drvB[k] = .rel) ∧ s.clkLevel = c.clkInit ∧
    s.faults = ⟨false⟩ ∧ s.refusals = ⟨false, false⟩ ∧ s.out = [] ∧ s.cfg = c ∧ s.idle = true

/-! ## MOUNT and UNMOUNT -/

/-- R186: `connected` and one RPT_REQ, nothing else; mounted again, only another RPT_REQ. -/
def Obligations.MountConnectsAndRequests : Prop :=
  decodeEvent 0x20000000 = .instr .mount ∧
  (∀ s, exec .mount s = .next { s with connected := true, out := s.out ++ [.rptReq] }) ∧
  (∀ s, s.connected = true → exec .mount s = .next { s with out := s.out ++ [.rptReq] }) ∧
  (∀ c, ∃ t, exec .mount (State.powerOn c) = .next t ∧ t.connected = true ∧ t.out = [.rptReq] ∧ t.streaming = true)

/-- R187, its pseudocode: the accumulator, the frame's activity, the cursor and the connection; the lines, the frame and
the foreground's pair are kept, so a second UNMOUNT does nothing more, and the block is Idle (R33). It follows the
pseudocode where the rule's corner case 'UNMOUNT from Idle changes nothing' differs (notes/assumptions/11.md). -/
def Obligations.UnmountReturnsToIdle : Prop :=
  decodeEvent 0x30000000 = .instr .unmount ∧
  ∀ s, ∃ t, exec .unmount s = .next t ∧
    t = { s with accX := 0, accY := 0, dirty := false, active := false, cursor := 0, connected := false } ∧
    t.idle = true ∧ exec .unmount t = .next t

/-! ## REPORT -/

/-- R102: an accepted report whose sums fit adds its scaled samples and sets `dirty`; what else it writes is the button
lines and one request, and nothing more. -/
def Obligations.AcceptedReportAccumulates : Prop :=
  ∀ len b0 b1 b2 s nx ny, 3 ≤ len.toNat →
    nx = s.accX.toInt + scaleSample s.cfg (sext8 b1) → ny = s.accY.toInt + scaleSample s.cfg (sext8 b2) →
    -2147483648 ≤ nx → nx ≤ 2147483647 → -2147483648 ≤ ny → ny ≤ 2147483647 →
    ∃ t, exec (.report len b0 b1 b2) s = .next t ∧
      t.accX.toInt = nx ∧ t.accY.toInt = ny ∧ t.dirty = true ∧ t.out = s.out ++ [.rptReq] ∧
      { t with accX := s.accX, accY := s.accY, dirty := s.dirty, drvB := s.drvB, out := s.out } = s

/-- R103: an accepted report whose sums do not fit keeps both sums and `dirty`, marks ACC_OVERFLOW, and still updates the
buttons and requests the next report. -/
def Obligations.OverflowingReportOnlyMarks : Prop :=
  ∀ len b0 b1 b2 s nx ny, 3 ≤ len.toNat →
    nx = s.accX.toInt + scaleSample s.cfg (sext8 b1) → ny = s.accY.toInt + scaleSample s.cfg (sext8 b2) →
    ¬(-2147483648 ≤ nx ∧ nx ≤ 2147483647 ∧ -2147483648 ≤ ny ∧ ny ≤ 2147483647) →
    ∃ t, exec (.report len b0 b1 b2) s = .next t ∧
      t.faults.accOverflow = true ∧ t.accX = s.accX ∧ t.accY = s.accY ∧ t.dirty = s.dirty ∧
      t.drvB = (buttonUpdate b0 s).drvB ∧ t.out = s.out ++ [.rptReq] ∧
      { t with faults := s.faults, drvB := s.drvB, out := s.out } = s

/-- R182: a report shorter than 3 bytes writes nothing but the request, and marks nothing. -/
def Obligations.UndersizedReportIsDiscarded : Prop :=
  ∀ len b0 b1 b2 s, len.toNat < 3 →
    exec (.report len b0 b1 b2) s = .next { s with out := s.out ++ [.rptReq] }

/-- R183: every report, accepted or not, appends exactly one RPT_REQ. -/
def Obligations.EveryReportRequestsTheNext : Prop :=
  ∀ len b0 b1 b2 s, ∃ t, exec (.report len b0 b1 b2) s = .next t ∧ t.out = s.out ++ [.rptReq]

/-- R185: the button lines after an accepted report, whether or not its accumulate faults; bits of B0 past the block's
button lines are ignored; and an idle edge releases the lines again. -/
def Obligations.ReportDrivesTheButtonLines : Prop :=
  (∀ len b0 b1 b2 s, 3 ≤ len.toNat → ∃ t, exec (.report len b0 b1 b2) s = .next t ∧
    ∀ k : Fin 2, t.drvB[k] =
      if s.cfg.buttonMode = .fromReport ∧ k.val < s.cfg.numBtn.val then
        (if b0.getLsbD k.val then .low else .rel)
      else s.drvB[k]) ∧
  (∀ lvl s, s.active = false → lvl ≠ s.clkLevel → ∃ t, exec (.clk lvl) s = .next t ∧
    ∀ k : Fin 2, k.val < s.cfg.numBtn.val → t.drvB[k] = .rel)

/-! ## FG -/

/-- R188: phase 1 drains and clamps when `dirty`, and is a no-op when not. -/
def Obligations.ForegroundDrainsAndClamps : Prop :=
  decodeEvent 0x50000000 = .instr .fg ∧
  (∀ s, s.fgPhase = .idle → s.dirty = true →
    exec .fg s = .next { s with
      accX := 0, accY := 0, dirty := false, fgPhase := .pending,
      pendX := max (-127) (min 127 s.accX.toInt), pendY := max (-127) (min 127 s.accY.toInt) }) ∧
  (∀ s, s.fgPhase = .idle → s.dirty = false → exec .fg s = .next s)

/-- R189, R127: phase 2 builds and publishes the pair, unless it is (0, 0) under SKIP; the frame, the cursor, the activity
and the staged data lines are as R125 and R126 say, and no button line is written. -/
def Obligations.ForegroundPublishesThePair : Prop :=
  ∀ s, s.fgPhase = .pending →
    (s.pendX = 0 → s.pendY = 0 → s.cfg.zeroPolicy = .skip → exec .fg s = .next { s with fgPhase := .idle }) ∧
    (¬(s.pendX = 0 ∧ s.pendY = 0 ∧ s.cfg.zeroPolicy = .skip) →
      ∃ t, exec .fg s = .next t ∧ t.fgPhase = .idle ∧ t.cursor = 0 ∧ t.active = true ∧
        t.frame[0] = s.cfg.idNibble ∧ t.frame[1] = s.cfg.padNibble ∧ t.frame[2] = s.cfg.padNibble ∧
        t.frame[3].toNat = (s.pendX % 256).toNat / 16 ∧ t.frame[4].toNat = (s.pendX % 256).toNat % 16 ∧
        t.frame[5].toNat = (s.pendY % 256).toNat / 16 ∧ t.frame[6].toNat = (s.pendY % 256).toNat % 16 ∧
        showsNibble t.drvD s.cfg.idNibble ∧ t.wireD = s.cfg.idNibble ∧
        { t with fgPhase := s.fgPhase, cursor := s.cursor, active := s.active, frame := s.frame, drvD := s.drvD } = s)

/-- Zero motion under SKIP, both phases (W10, Scenario D; derived: R104, R127, R188, R189): a dirty accumulator that sums
to (0, 0) is drained and nothing is published, so the prior frame goes on. -/
def Obligations.ZeroMotionLeavesTheFrame : Prop :=
  ∀ s, s.fgPhase = .idle → s.dirty = true → s.accX = 0 → s.accY = 0 → s.cfg.zeroPolicy = .skip →
    ∃ t u, exec .fg s = .next t ∧ exec .fg t = .next u ∧ u = { s with dirty := false, pendX := 0, pendY := 0 }

/-- R128: publication does not wait for a frame boundary. Whatever the cursor was, the next edge shows element 0 of the
new frame. -/
def Obligations.PublicationRestartsTheFrame : Prop :=
  ∀ s lvl, s.fgPhase = .pending → (s.pendX ≠ 0 ∨ s.pendY ≠ 0) → lvl ≠ s.clkLevel →
    ∃ t u, exec .fg s = .next t ∧ t.cursor = 0 ∧ exec (.clk lvl) t = .next u ∧
      showsNibble u.drvD t.frame[0] ∧ u.frame = t.frame ∧ u.cursor = 1

/-- R55: what comes between the two phases. A report lands in the zeroed accumulator and stays for the next phase 1; an
edge emits from the old frame; an UNMOUNT deactivates, and phase 2 publishes the pending pair anyway. -/
def Obligations.StepsBetweenThePhases : Prop :=
  ∀ s, s.fgPhase = .pending → (s.pendX ≠ 0 ∨ s.pendY ≠ 0) →
    (∀ len b0 b1 b2, ∃ t u, exec (.report len b0 b1 b2) s = .next t ∧ exec .fg t = .next u ∧
      u.accX = t.accX ∧ u.accY = t.accY ∧ u.dirty = t.dirty ∧ u.active = true ∧
      u.frame = build s.cfg s.pendX s.pendY) ∧
    (∀ lvl, s.active = true → lvl ≠ s.clkLevel → ∃ t, exec (.clk lvl) s = .next t ∧
      showsNibble t.drvD s.frame[s.cursor] ∧ t.fgPhase = .pending ∧ t.pendX = s.pendX ∧ t.pendY = s.pendY) ∧
    (∃ t u, exec .unmount s = .next t ∧ t.active = false ∧ t.fgPhase = .pending ∧
      exec .fg t = .next u ∧ u.active = true ∧ u.frame = build s.cfg s.pendX s.pendY)

/-- R53: a publication and an edge, in both orders. Edge first, it emits from the old frame and the publication then
overwrites the lines; publication first, the edge emits the new element 0. Either way the lines end on the new element 0. -/
def Obligations.EdgeIsWhollyBeforeOrAfterPublication : Prop :=
  ∀ s lvl, s.active = true → s.fgPhase = .pending → (s.pendX ≠ 0 ∨ s.pendY ≠ 0) → lvl ≠ s.clkLevel →
    (∃ t u, exec (.clk lvl) s = .next t ∧ exec .fg t = .next u ∧
      showsNibble t.drvD s.frame[s.cursor] ∧ t.frame = s.frame ∧
      showsNibble u.drvD s.cfg.idNibble ∧ u.frame = build s.cfg s.pendX s.pendY ∧ u.cursor = 0) ∧
    (∃ t u, exec .fg s = .next t ∧ exec (.clk lvl) t = .next u ∧
      t.frame = build s.cfg s.pendX s.pendY ∧ t.cursor = 0 ∧
      showsNibble u.drvD s.cfg.idNibble ∧ u.frame = t.frame ∧ u.cursor = 1)

/-! ## CLK -/

/-- R140 to R143, R190: no edge, no field written; on an edge of either direction the active emitter shows the element
under the cursor and advances it modulo 7, and the idle one releases every line and touches no cursor and no frame. -/
def Obligations.ClockEdgeEmits : Prop :=
  decodeEvent 0x60000000 = .instr (.clk false) ∧ decodeEvent 0x60000001 = .instr (.clk true) ∧
  (∀ lvl s, lvl = s.clkLevel → exec (.clk lvl) s = .next s) ∧
  (∀ lvl s, lvl ≠ s.clkLevel → s.active = true → ∃ t, exec (.clk lvl) s = .next t ∧
    t.clkLevel = lvl ∧ showsNibble t.drvD s.frame[s.cursor] ∧ t.cursor.val = (s.cursor.val + 1) % 7 ∧
    { t with clkLevel := s.clkLevel, drvD := s.drvD, cursor := s.cursor } = s) ∧
  (∀ lvl s, lvl ≠ s.clkLevel → s.active = false → ∃ t, exec (.clk lvl) s = .next t ∧
    t.clkLevel = lvl ∧ (∀ i : Fin 4, t.drvD[i] = .rel) ∧
    (∀ k : Fin 2, t.drvB[k] = if k.val < s.cfg.numBtn.val then .rel else s.drvB[k]) ∧
    { t with clkLevel := s.clkLevel, drvD := s.drvD, drvB := s.drvB } = s)

/-- R144: the edge step writes only `clk_level`, `cursor`, `drv_d` and `drv_b`, and reads only `clk_level`, `active`,
`cursor` and `frame`: two states that agree on those (and on the lines, which a step may leave as they are, and on how
many button lines there are) agree on everything it writes. -/
def Obligations.EmitterReadsAndWritesItsOwn : Prop :=
  ∀ lvl (s s' t t' : State), exec (.clk lvl) s = .next t → exec (.clk lvl) s' = .next t' →
    { t with clkLevel := s.clkLevel, cursor := s.cursor, drvD := s.drvD, drvB := s.drvB } = s ∧
    (s'.clkLevel = s.clkLevel → s'.active = s.active → s'.cursor = s.cursor → s'.frame = s.frame →
      s'.drvD = s.drvD → s'.drvB = s.drvB → s'.cfg.numBtn = s.cfg.numBtn →
      t'.clkLevel = t.clkLevel ∧ t'.cursor = t.cursor ∧ t'.drvD = t.drvD ∧ t'.drvB = t.drvB)

/-- R147: with no edge, the lines and the cursor hold, except where a publication, REPORT, UNMOUNT or RESET writes them.
(A line micro-op given from outside is no step of the block, R74.) -/
def Obligations.StoppedClockHoldsTheLines : Prop :=
  ∀ (s t : State), step s = .next t → eventsOnly s → edgeNext s = false → publicationNext s = false →
    nextInstr s ≠ some .reset →
    t.drvD = s.drvD ∧
    (nextInstr s ≠ some .unmount → t.cursor = s.cursor) ∧
    ((∀ len b0 b1 b2, nextInstr s ≠ some (.report len b0 b1 b2)) → t.drvB = s.drvB)

/-- R145: the cyclic order. From a just published frame (`cursor = 0`, active), over any number of steps with no
publication, UNMOUNT or RESET among them, whatever else they are, N edges leave the cursor at N mod 7 and the lines on
element (N - 1) mod 7. -/
def Obligations.EdgesEmitTheFrameInCyclicOrder : Prop :=
  ∀ (k : Nat) (s t : State), s.active = true → s.cursor = 0 → during keepsFrame k s → runs k s t →
    t.active = true ∧ t.frame = s.frame ∧ t.cursor.val = edgesIn k s % 7 ∧
    (∀ i : Fin 7, edgesIn k s ≠ 0 → i.val = (edgesIn k s - 1) % 7 → showsNibble t.drvD s.frame[i]) ∧
    (edgesIn k s = 0 → t.drvD = s.drvD)

/-- R245, the repetition: with no new publication, UNMOUNT or RESET, every 7 edges of an active frame bring the cursor
back to where it was, on the same frame, the last element shown being the one before it (derived: R127, R142, R245). -/
def Obligations.SevenEdgesRepeatTheFrame : Prop :=
  ∀ (k : Nat) (s t : State), s.active = true → during keepsFrame k s → runs k s t → edgesIn k s = 7 →
    t.active = true ∧ t.frame = s.frame ∧ t.cursor = s.cursor ∧
    ∀ i : Fin 7, (i.val + 1) % 7 = s.cursor.val → showsNibble t.drvD s.frame[i]

/-- R146: after power-on or a RESET event, and before any publication, an edge releases every line the block has. -/
def Obligations.FirstEdgeReleasesEveryLine : Prop :=
  ∀ (k : Nat) (s u : State) (lvl : Bool), (launched s ∨ ∃ r, exec .reset r = .next s) → during (fun v => !publicationNext v) k s → runs k s u →
    lvl ≠ u.clkLevel →
    ∃ t, exec (.clk lvl) u = .next t ∧ (∀ i : Fin 4, t.drvD[i] = .rel) ∧
      ∀ k : Fin 2, k.val < u.cfg.numBtn.val → t.drvB[k] = .rel

/-- R243: element 0 appears twice. Publication stages it, the first edge after it emits it again and changes no data line,
and the second edge shows element 1. -/
def Obligations.ElementZeroAppearsTwice : Prop :=
  ∀ s lvl, s.fgPhase = .pending → (s.pendX ≠ 0 ∨ s.pendY ≠ 0) → lvl ≠ s.clkLevel →
    ∃ t u v, exec .fg s = .next t ∧ exec (.clk lvl) t = .next u ∧ exec (.clk (!lvl)) u = .next v ∧
      showsNibble t.drvD s.cfg.idNibble ∧ u.drvD = t.drvD ∧ showsNibble v.drvD t.frame[1]

/-! ## Line micro-ops -/

/-- R160: the encoding of DRVLO; it drives the one line low and writes nothing else; on a line already LOW it changes nothing; from all REL,
D2 driven low gives 0b1011 on the wire. -/
def Obligations.DriveLowDrivesOneLine : Prop :=
  (∀ numBtn (i : Fin 4), decodeLineOp numBtn (BitVec.ofNat 8 i.val) = .instr (.drvlo (.d i))) ∧
  (∀ numBtn (k : Fin 2), k.val < numBtn.val → decodeLineOp numBtn (BitVec.ofNat 8 (4 + k.val)) = .instr (.drvlo (.b k))) ∧
  (∀ (i : Fin 4) s, ∃ t, exec (.drvlo (.d i)) s = .next t ∧
    (∀ j : Fin 4, t.drvD[j] = if j = i then .low else s.drvD[j]) ∧ { t with drvD := s.drvD } = s) ∧
  (∀ (k : Fin 2) s, k.val < s.cfg.numBtn.val → ∃ t, exec (.drvlo (.b k)) s = .next t ∧
    (∀ j : Fin 2, t.drvB[j] = if j = k then .low else s.drvB[j]) ∧ { t with drvB := s.drvB } = s) ∧
  (∀ l s, l.present s.cfg.numBtn = true → ∃ t, exec (.drvlo l) s = .next t ∧ exec (.drvlo l) t = .next t) ∧
  (∀ s, dataIdle s.drvD → ∃ t, exec (.drvlo (.d 2)) s = .next t ∧ t.wireD = 0b1011)

/-- R161: the encoding of REL; it releases the one line and writes nothing else; on a line already REL it changes nothing; from 0b1011, D2
released gives 0b1111 on the wire. -/
def Obligations.ReleaseReleasesOneLine : Prop :=
  (∀ numBtn (i : Fin 4), decodeLineOp numBtn (BitVec.ofNat 8 (64 + i.val)) = .instr (.rel (.d i))) ∧
  (∀ numBtn (k : Fin 2), k.val < numBtn.val → decodeLineOp numBtn (BitVec.ofNat 8 (68 + k.val)) = .instr (.rel (.b k))) ∧
  (∀ (i : Fin 4) s, ∃ t, exec (.rel (.d i)) s = .next t ∧
    (∀ j : Fin 4, t.drvD[j] = if j = i then .rel else s.drvD[j]) ∧ { t with drvD := s.drvD } = s) ∧
  (∀ (k : Fin 2) s, k.val < s.cfg.numBtn.val → ∃ t, exec (.rel (.b k)) s = .next t ∧
    (∀ j : Fin 2, t.drvB[j] = if j = k then .rel else s.drvB[j]) ∧ { t with drvB := s.drvB } = s) ∧
  (∀ l s, l.present s.cfg.numBtn = true → ∃ t, exec (.rel l) s = .next t ∧ exec (.rel l) t = .next t) ∧
  (∀ s, showsNibble s.drvD 0b1011 → ∃ t, exec (.rel (.d 2)) s = .next t ∧ t.wireD = 0b1111)

/-- R79 on an instruction: DRVLO or REL of a button line the block does not have is refused with no state change
(derived: R74, R79, R160, R161; that the operation refuses too, and not only the decoder, is the model's choice,
notes/assumptions/6.md). -/
def Obligations.AbsentButtonLineIsRefused : Prop :=
  ∀ (k : Fin 2) s, s.cfg.numBtn.val ≤ k.val →
    exec (.drvlo (.b k)) s = .next { s with refusals := { s.refusals with illegalLineop := true } } ∧
    exec (.rel (.b k)) s = .next { s with refusals := { s.refusals with illegalLineop := true } }

/-- R163: the encoding of SETNIB; it puts bit i of the nibble on Di, 1 as REL and 0 as LOW, and writes no other field; its corners and its
example. -/
def Obligations.SetNibbleDrivesTheDataLines : Prop :=
  (∀ numBtn (n : Nibble), decodeLineOp numBtn (BitVec.ofNat 8 (128 + n.toNat)) = .instr (.setnib n)) ∧
  (∀ n s, ∃ t, exec (.setnib n) s = .next t ∧
    (∀ i : Fin 4, t.drvD[i] = if n.getLsbD i.val then .rel else .low) ∧ { t with drvD := s.drvD } = s) ∧
  (∀ s, ∃ t, exec (.setnib 0x0) s = .next t ∧ ∀ i : Fin 4, t.drvD[i] = .low) ∧
  (∀ s, ∃ t, exec (.setnib 0xF) s = .next t ∧ dataIdle t.drvD) ∧
  (∀ s, ∃ t, exec (.setnib 0xA) s = .next t ∧ t.drvD = #v[.low, .rel, .low, .rel] ∧ t.wireD = 0xA)

/-- R165: the encoding of RELALL; it releases every data line and every button line the block has, and writes nothing else; done twice it
does no more; its example. -/
def Obligations.ReleaseAllReleasesEveryLine : Prop :=
  (∀ numBtn, decodeLineOp numBtn 0xC0 = .instr .relall) ∧
  (∀ s, ∃ t, exec .relall s = .next t ∧ (∀ i : Fin 4, t.drvD[i] = .rel) ∧
    (∀ k : Fin 2, t.drvB[k] = if k.val < s.cfg.numBtn.val then .rel else s.drvB[k]) ∧
    { t with drvD := s.drvD, drvB := s.drvB } = s ∧ exec .relall t = .next t) ∧
  (∀ s, showsNibble s.drvD 0 → s.button 0 = some .low → ∃ t, exec .relall s = .next t ∧ t.wireD = 0xF ∧
    t.button 0 = some .rel)

/-- R164: a line driven low reads 0 whatever lies outside, a released one reads 1 under EXT_PULLUP, and after SETNIB n
the data wires read n under that premise (derived: R163, R164). Outside the premise a released line may read either
level (93_implementation_defined.md I14); that `Outside` carries that level is the model's choice
(notes/assumptions/8.md). -/
def Obligations.WireLevelsFollowTheDrivers : Prop :=
  (∀ e, Driver.low.wireIn e = false) ∧
  (∀ e, e.extPullup = true → Driver.rel.wireIn e = true) ∧
  (∀ v, ∃ e : Outside, e.extPullup = false ∧ Driver.rel.wireIn e = v) ∧
  (∀ n s, ∃ t, exec (.setnib n) s = .next t ∧ t.wireD = n)

/-! ## Arithmetic -/

/-- R101: `ROUND(q)` is an integer nearest to q under either tie rule, and the default takes the one farther from zero
at a tie, as in the rule's four examples. -/
def Obligations.RoundTakesTheNearestInteger : Prop :=
  (∀ t (q : ℚ), |(roundQ t q : ℚ) - q| ≤ 1 / 2) ∧
  (∀ (q : ℚ) (n : ℤ), |(n : ℚ) - q| < 1 / 2 → ∀ t, roundQ t q = n) ∧
  (∀ n : ℤ, 0 ≤ n → roundQ .awayFromZero ((n : ℚ) + 1 / 2) = n + 1) ∧
  (∀ n : ℤ, n < 0 → roundQ .awayFromZero ((n : ℚ) + 1 / 2) = n) ∧
  roundQ .awayFromZero (5 / 2) = 3 ∧ roundQ .awayFromZero (-5 / 2) = -3 ∧
  roundQ .awayFromZero (1 / 2) = 1 ∧ roundQ .awayFromZero (-1 / 2) = -1

/-- R100: the scaled sample is ROUND of the exact product; with SCALE = 1 it is the delta, with SCALE = 0 it is 0. -/
def Obligations.ScaledSampleRoundsTheExactProduct : Prop :=
  (∀ (c : Config) (d : ℤ), scaleSample c d = roundQ c.ties (c.scale * (d : ℚ))) ∧
  (∀ (c : Config) (d : ℤ), c.scale = 1 → scaleSample c d = d) ∧
  (∀ (c : Config) (d : ℤ), c.scale = 0 → scaleSample c d = 0)

/-- R120, R121: the clamp and its laws, and the corners of R120. -/
def Obligations.ClampLaws : Prop :=
  (∀ v, clamp v = max (-127) (min 127 v)) ∧
  (∀ v, clamp (clamp v) = clamp v) ∧ (∀ v, -127 ≤ v → v ≤ 127 → clamp v = v) ∧ (∀ v, clamp v = 0 ↔ v = 0) ∧
  clamp (-128) = -127 ∧ clamp 2147483647 = 127 ∧ clamp (-2147483648) = -127 ∧ clamp 0 = 0 ∧ clamp 130 = 127

/-- R123: the nibble split of every v in [-128, 127] gives back v, and on the core's domain 0x80 never occurs and the
high nibble tells the sign. -/
def Obligations.NibbleSplitGivesBackTheByte : Prop :=
  (∀ v : ℤ, -128 ≤ v → v ≤ 127 →
    ((u8 v).toNat : ℤ) = v % 256 ∧ sext8 (byteOf (hi4 (u8 v)) (lo4 (u8 v))) = v) ∧
  (∀ v : ℤ, -127 ≤ v → v ≤ 127 →
    u8 v ≠ 0x80 ∧ (0 ≤ v → (hi4 (u8 v)).toNat ≤ 7) ∧ (v < 0 → 8 ≤ (hi4 (u8 v)).toNat))

/-- R129: the round-trip law of BUILD. -/
def Obligations.BuiltFrameGivesBackThePair : Prop :=
  ∀ (c : Config) (x y : ℤ), -127 ≤ x → x ≤ 127 → -127 ≤ y → y ≤ 127 →
    let f := build c x y
    f.toList.length = 7 ∧ f[0] = c.idNibble ∧ f[1] = c.padNibble ∧ f[2] = c.padNibble ∧
    sext8 (byteOf f[3] f[4]) = x ∧ sext8 (byteOf f[5] f[6]) = y

/-- R105: the sum law. A drain after any sequence of accumulates from a zeroed accumulator, none of them faulting,
returns the sums of the scaled samples, those of the raw ones when SCALE = 1, and an immediate second drain returns
(0, 0). -/
def Obligations.DrainReturnsTheExactSum : Prop :=
  ∀ (s : State) (samples : List (ℤ × ℤ)), s.accX = 0 → s.accY = 0 →
    let t := samples.foldl (fun u d => accumulate d.1 d.2 u) s
    faultFree t →
    (drain t).1 = ((samples.map fun d => scaleSample s.cfg d.1).sum, (samples.map fun d => scaleSample s.cfg d.2).sum) ∧
    (s.cfg.scale = 1 → (drain t).1 = ((samples.map Prod.fst).sum, (samples.map Prod.snd).sum)) ∧
    (drain (drain t).2).1 = (0, 0)

/-- R39 I-SUM over every run: while no fault is recorded, the accumulator holds the sums of the scaled samples of the
accepted reports since the last drain, UNMOUNT or RESET, whatever the other steps are (derived: R39, R54, R102, R104). -/
def Obligations.AccumulatorHoldsTheExactSum : Prop :=
  ∀ (k : Nat) (s t : State), runs k s t → faultFree t →
    (t.accX.toInt, t.accY.toInt) = sumsOver k s (s.accX.toInt, s.accY.toInt)

/-- R103, its bound: with SCALE = 1, a zeroed accumulator and no fault yet, no run of fewer than 16,777,216 steps, and so
of reports, records ACC_OVERFLOW (derived: R100, R102, R103). -/
def Obligations.NoOverflowBelowTheReportBound : Prop :=
  ∀ (k : Nat) (s t : State), s.cfg.scale = 1 → s.accX = 0 → s.accY = 0 → faultFree s → k < 16777216 →
    runs k s t → faultFree t

/-! ## Rules of the whole machine -/

/-- R61, R104: a drain returns the pair as it stood, zeroes it and clears `dirty`, and a second drain returns (0, 0); what
a second read or a repeated event does. -/
def Obligations.SideEffectsAndIdempotency : Prop :=
  (∀ s, drain s = ((s.accX.toInt, s.accY.toInt), { s with accX := 0, accY := 0, dirty := false }) ∧
    (drain (drain s).2).1 = (0, 0)) ∧
  (∀ s lvl, s.active = true → lvl ≠ s.clkLevel → ∃ t u, exec (.clk lvl) s = .next t ∧ exec (.clk (!lvl)) t = .next u ∧
    showsNibble t.drvD s.frame[s.cursor] ∧ t.cursor.val = (s.cursor.val + 1) % 7 ∧
    showsNibble u.drvD s.frame[t.cursor]) ∧
  (∀ s lvl, ∃ t, exec (.clk lvl) s = .next t ∧ exec (.clk lvl) t = .next t) ∧
  (∀ s, ∃ t, exec .mount s = .next t ∧ exec .mount t = .next { t with out := t.out ++ [.rptReq] }) ∧
  (∀ s, ∃ t, exec .unmount s = .next t ∧ exec .unmount t = .next t)

/-- The writers of each field (derived: R37 for the event classes and the fields of its table, R34 and R35 for the marks
and the log, R36 for the configuration, R160, R161, R163 and R165 for the line micro-ops). What an instruction is not
listed as writing, it leaves as it was. That a micro-op can be given directly, and that DRVLO and REL of an absent line
write the refusal mark, are the model's choices (notes/assumptions/2.md, notes/assumptions/6.md). -/
def Obligations.OnlyListedWritersWrite : Prop :=
  ∀ (i : Instr) (s t : State) (f : Field), exec i s = .next t → listedWriter i f = false → f.same s t

/-- R34: the marks start empty and only grow. No step clears one, RESET among them; only a REPORT adds the fault, and only
an illegal word adds a refusal. -/
def Obligations.MarksAreSticky : Prop :=
  (∀ c, (State.powerOn c).faults = ⟨false⟩ ∧ (State.powerOn c).refusals = ⟨false, false⟩) ∧
  (∀ (k : Nat) (s t : State), runs k s t →
    (s.faults.accOverflow = true → t.faults.accOverflow = true) ∧
    (s.refusals.illegalEvent = true → t.refusals.illegalEvent = true) ∧
    (s.refusals.illegalLineop = true → t.refusals.illegalLineop = true)) ∧
  (∀ s t, step s = .next t → t.faults ≠ s.faults → ∃ len b0 b1 b2, nextInstr s = some (.report len b0 b1 b2)) ∧
  (∀ s t, step s = .next t → t.refusals ≠ s.refusals → nextInstr s = none)

/-- R36: the configuration is fixed for the life of a run. -/
def Obligations.ConfigurationIsFixed : Prop :=
  ∀ (k : Nat) (s t : State), runs k s t → t.cfg = s.cfg

/-- R35: the log is only appended to, by REPORT and MOUNT and with one RPT_REQ each, and no step reads it. -/
def Obligations.OutputLogIsWrittenAndNeverRead : Prop :=
  ∀ (s t : State) (o : List OutEvent), step s = .next t →
    ∃ e, t.out = s.out ++ e ∧ step { s with out := o } = .next { t with out := o ++ e } ∧
      (e = [.rptReq] ∧ (nextInstr s = some .mount ∨ ∃ len b0 b1 b2, nextInstr s = some (.report len b0 b1 b2)) ∨
        e = [] ∧ nextInstr s ≠ some .mount ∧ ∀ len b0 b1 b2, nextInstr s ≠ some (.report len b0 b1 b2))

/-- R28: MOUNT sets `connected`, UNMOUNT and RESET clear it, no other step writes it, and none reads it: with another
value of it the step does the same to every other field. -/
def Obligations.ConnectedIsNeverRead : Prop :=
  ∀ (s t : State) (b : Bool), step s = .next t →
    (nextInstr s = some .mount → t.connected = true) ∧
    (nextInstr s = some .unmount ∨ nextInstr s = some .reset → t.connected = false) ∧
    (nextInstr s ≠ some .mount → nextInstr s ≠ some .unmount → nextInstr s ≠ some .reset →
      t.connected = s.connected) ∧
    ∃ t', step { s with connected := b } = .next t' ∧ { t' with connected := t.connected } = t

/-- The invariants of R39 hold at power-on, whatever the configuration, and so does R40's (derived: R39, R40, R41). -/
def Obligations.PowerOnMeetsTheInvariants : Prop :=
  Invariants State.reset ∧ LineSet State.reset ∧ ∀ c, Invariants (State.powerOn c) ∧ LineSet (State.powerOn c)

/-- R39: every step keeps I-DIRTY, I-PEND and I-FRAME, and the model's own invariant of the absent button lines, from
every state that has them (derived: R39; the last one is the model's, notes/assumptions/6.md). -/
def Obligations.EveryStepKeepsTheInvariants : Prop :=
  ∀ s t, Invariants s → step s = .next t → Invariants t

/-- R40: every step of the block, driven by event words, keeps the line set derivable from a frame element or the idle
command, and the button lines released under BUTTON_MODE = RELEASED (derived: R40, R163; a line micro-op given from
outside is no step of the block). -/
def Obligations.EveryEventKeepsTheLineSet : Prop :=
  ∀ s t, LineSet s → eventsOnly s → step s = .next t → LineSet t

/-- Nothing about buttons reaches anything else: over any run of event words, taking the button lines, their number and
their mode out of the state changes no other field (derived: D9 'data-line claims do not depend on it', R143, R185). -/
def Obligations.ButtonsDoNotReachTheRest : Prop :=
  ∀ (k : Nat) (s t : State), eventsOnly s → runs k s t → runs k (withoutButtons s) (withoutButtons t)
end

