-- ==== Sys2Proof/Laws/Decode.lean ====
section
/-! SUPPORT. The decoder and the encoder as arithmetic on word values: where each field of R71 and R74 lies. -/

namespace Sys2Proof

theorem append_toNat {m n : Nat} (a : BitVec m) (b : BitVec n) : (a ++ b).toNat = a.toNat * 2 ^ n + b.toNat := by
  rw [BitVec.toNat_append, ← Nat.shiftLeft_add_eq_or_of_lt b.isLt, Nat.shiftLeft_eq]

theorem field_toNat {w : Nat} (x : BitVec w) (start len : Nat) :
    (x.extractLsb' start len).toNat = x.toNat / 2 ^ start % 2 ^ len := by
  rw [BitVec.extractLsb'_toNat, Nat.shiftRight_eq_div_pow]

theorem field_eq_iff {w len : Nat} (x : BitVec w) (start : Nat) (v : BitVec len) :
    x.extractLsb' start len = v ↔ x.toNat / 2 ^ start % 2 ^ len = v.toNat := by
  rw [← BitVec.toNat_inj, field_toNat]

/-- The value of a REPORT word (R71). -/
theorem reportWord_toNat (len : BitVec 4) (b0 b1 b2 : Byte) :
    (0x4#4 ++ len ++ b0 ++ b1 ++ b2 : BitVec 32).toNat =
      0x40000000 + len.toNat * 2 ^ 24 + b0.toNat * 2 ^ 16 + b1.toNat * 2 ^ 8 + b2.toNat := by
  simp only [append_toNat, BitVec.toNat_ofNat]
  omega

/-- The field of each line names it (R74). -/
theorem lineOfField_field (l : Line) : lineOfField l.field = some l := by
  cases l with
  | d i => revert i; decide
  | b k => revert k; decide

theorem decode_whenZero {w : Nat} {mbz : BitVec w} {i j : Instr} (h : whenZero mbz i = .instr j) :
    mbz = 0 ∧ i = j := by
  unfold whenZero at h
  split at h
  · exact ⟨‹_›, by injection h⟩
  · cases h

/-- What an event word must be to decode to an instruction (R72). -/
theorem decodeEvent_cases {w : EventWord} {i : Instr} (h : decodeEvent w = .instr i) :
    (w.toNat = 0x10000000 ∧ i = .reset) ∨ (w.toNat = 0x20000000 ∧ i = .mount) ∨
    (w.toNat = 0x30000000 ∧ i = .unmount) ∨
    (w.toNat / 2 ^ 28 = 4 ∧
      i = .report (w.extractLsb' 24 4) (w.extractLsb' 16 8) (w.extractLsb' 8 8) (w.extractLsb' 0 8)) ∨
    (w.toNat = 0x50000000 ∧ i = .fg) ∨
    (w.toNat / 2 = 0x30000000 ∧ i = .clk (w.getLsbD 0)) := by
  have hw := w.isLt
  have ev : (w.extractLsb' 28 4).toNat = w.toNat / 2 ^ 28 := by
    rw [field_toNat]; omega
  unfold decodeEvent at h
  rw [ev] at h
  split at h
  · obtain ⟨hz, rfl⟩ := decode_whenZero h
    rw [field_eq_iff] at hz; simp at hz; exact .inl ⟨by omega, rfl⟩
  · obtain ⟨hz, rfl⟩ := decode_whenZero h
    rw [field_eq_iff] at hz; simp at hz; exact .inr (.inl ⟨by omega, rfl⟩)
  · obtain ⟨hz, rfl⟩ := decode_whenZero h
    rw [field_eq_iff] at hz; simp at hz; exact .inr (.inr (.inl ⟨by omega, rfl⟩))
  · injection h with h; subst h; exact .inr (.inr (.inr (.inl ⟨by assumption, rfl⟩)))
  · obtain ⟨hz, rfl⟩ := decode_whenZero h
    rw [field_eq_iff] at hz; simp at hz; exact .inr (.inr (.inr (.inr (.inl ⟨by omega, rfl⟩))))
  · obtain ⟨hz, rfl⟩ := decode_whenZero h
    rw [field_eq_iff] at hz; simp at hz; exact .inr (.inr (.inr (.inr (.inr ⟨by omega, rfl⟩))))
  · cases h

end Sys2Proof
end

