-- ==== Sys2Proof/Laws/State.lean ====
section
/-! SUPPORT. One lemma per field per update, for the updates with no case in them: what each leaves and what it writes.
The updates with cases have theirs in Laws/Ops.lean. -/

namespace Sys2Proof.Machine

@[simp] theorem setDirty_accX (v : Bool) (s : State) : (setDirty v s).accX = s.accX := rfl
@[simp] theorem setDirty_accY (v : Bool) (s : State) : (setDirty v s).accY = s.accY := rfl
@[simp] theorem setDirty_dirty (v : Bool) (s : State) : (setDirty v s).dirty = v := rfl
@[simp] theorem setDirty_frame (v : Bool) (s : State) : (setDirty v s).frame = s.frame := rfl
@[simp] theorem setDirty_cursor (v : Bool) (s : State) : (setDirty v s).cursor = s.cursor := rfl
@[simp] theorem setDirty_active (v : Bool) (s : State) : (setDirty v s).active = s.active := rfl
@[simp] theorem setDirty_connected (v : Bool) (s : State) : (setDirty v s).connected = s.connected := rfl
@[simp] theorem setDirty_fgPhase (v : Bool) (s : State) : (setDirty v s).fgPhase = s.fgPhase := rfl
@[simp] theorem setDirty_pendX (v : Bool) (s : State) : (setDirty v s).pendX = s.pendX := rfl
@[simp] theorem setDirty_pendY (v : Bool) (s : State) : (setDirty v s).pendY = s.pendY := rfl
@[simp] theorem setDirty_drvD (v : Bool) (s : State) : (setDirty v s).drvD = s.drvD := rfl
@[simp] theorem setDirty_drvB (v : Bool) (s : State) : (setDirty v s).drvB = s.drvB := rfl
@[simp] theorem setDirty_clkLevel (v : Bool) (s : State) : (setDirty v s).clkLevel = s.clkLevel := rfl
@[simp] theorem setDirty_faults (v : Bool) (s : State) : (setDirty v s).faults = s.faults := rfl
@[simp] theorem setDirty_refusals (v : Bool) (s : State) : (setDirty v s).refusals = s.refusals := rfl
@[simp] theorem setDirty_out (v : Bool) (s : State) : (setDirty v s).out = s.out := rfl
@[simp] theorem setDirty_cfg (v : Bool) (s : State) : (setDirty v s).cfg = s.cfg := rfl
@[simp] theorem setDirty_inbox (v : Bool) (s : State) : (setDirty v s).inbox = s.inbox := rfl

@[simp] theorem setActive_accX (v : Bool) (s : State) : (setActive v s).accX = s.accX := rfl
@[simp] theorem setActive_accY (v : Bool) (s : State) : (setActive v s).accY = s.accY := rfl
@[simp] theorem setActive_dirty (v : Bool) (s : State) : (setActive v s).dirty = s.dirty := rfl
@[simp] theorem setActive_frame (v : Bool) (s : State) : (setActive v s).frame = s.frame := rfl
@[simp] theorem setActive_cursor (v : Bool) (s : State) : (setActive v s).cursor = s.cursor := rfl
@[simp] theorem setActive_active (v : Bool) (s : State) : (setActive v s).active = v := rfl
@[simp] theorem setActive_connected (v : Bool) (s : State) : (setActive v s).connected = s.connected := rfl
@[simp] theorem setActive_fgPhase (v : Bool) (s : State) : (setActive v s).fgPhase = s.fgPhase := rfl
@[simp] theorem setActive_pendX (v : Bool) (s : State) : (setActive v s).pendX = s.pendX := rfl
@[simp] theorem setActive_pendY (v : Bool) (s : State) : (setActive v s).pendY = s.pendY := rfl
@[simp] theorem setActive_drvD (v : Bool) (s : State) : (setActive v s).drvD = s.drvD := rfl
@[simp] theorem setActive_drvB (v : Bool) (s : State) : (setActive v s).drvB = s.drvB := rfl
@[simp] theorem setActive_clkLevel (v : Bool) (s : State) : (setActive v s).clkLevel = s.clkLevel := rfl
@[simp] theorem setActive_faults (v : Bool) (s : State) : (setActive v s).faults = s.faults := rfl
@[simp] theorem setActive_refusals (v : Bool) (s : State) : (setActive v s).refusals = s.refusals := rfl
@[simp] theorem setActive_out (v : Bool) (s : State) : (setActive v s).out = s.out := rfl
@[simp] theorem setActive_cfg (v : Bool) (s : State) : (setActive v s).cfg = s.cfg := rfl
@[simp] theorem setActive_inbox (v : Bool) (s : State) : (setActive v s).inbox = s.inbox := rfl

@[simp] theorem setConnected_accX (v : Bool) (s : State) : (setConnected v s).accX = s.accX := rfl
@[simp] theorem setConnected_accY (v : Bool) (s : State) : (setConnected v s).accY = s.accY := rfl
@[simp] theorem setConnected_dirty (v : Bool) (s : State) : (setConnected v s).dirty = s.dirty := rfl
@[simp] theorem setConnected_frame (v : Bool) (s : State) : (setConnected v s).frame = s.frame := rfl
@[simp] theorem setConnected_cursor (v : Bool) (s : State) : (setConnected v s).cursor = s.cursor := rfl
@[simp] theorem setConnected_active (v : Bool) (s : State) : (setConnected v s).active = s.active := rfl
@[simp] theorem setConnected_connected (v : Bool) (s : State) : (setConnected v s).connected = v := rfl
@[simp] theorem setConnected_fgPhase (v : Bool) (s : State) : (setConnected v s).fgPhase = s.fgPhase := rfl
@[simp] theorem setConnected_pendX (v : Bool) (s : State) : (setConnected v s).pendX = s.pendX := rfl
@[simp] theorem setConnected_pendY (v : Bool) (s : State) : (setConnected v s).pendY = s.pendY := rfl
@[simp] theorem setConnected_drvD (v : Bool) (s : State) : (setConnected v s).drvD = s.drvD := rfl
@[simp] theorem setConnected_drvB (v : Bool) (s : State) : (setConnected v s).drvB = s.drvB := rfl
@[simp] theorem setConnected_clkLevel (v : Bool) (s : State) : (setConnected v s).clkLevel = s.clkLevel := rfl
@[simp] theorem setConnected_faults (v : Bool) (s : State) : (setConnected v s).faults = s.faults := rfl
@[simp] theorem setConnected_refusals (v : Bool) (s : State) : (setConnected v s).refusals = s.refusals := rfl
@[simp] theorem setConnected_out (v : Bool) (s : State) : (setConnected v s).out = s.out := rfl
@[simp] theorem setConnected_cfg (v : Bool) (s : State) : (setConnected v s).cfg = s.cfg := rfl
@[simp] theorem setConnected_inbox (v : Bool) (s : State) : (setConnected v s).inbox = s.inbox := rfl

@[simp] theorem raiseFault_accX (s : State) : (raiseFault .accOverflow s).accX = s.accX := rfl
@[simp] theorem raiseFault_accY (s : State) : (raiseFault .accOverflow s).accY = s.accY := rfl
@[simp] theorem raiseFault_dirty (s : State) : (raiseFault .accOverflow s).dirty = s.dirty := rfl
@[simp] theorem raiseFault_frame (s : State) : (raiseFault .accOverflow s).frame = s.frame := rfl
@[simp] theorem raiseFault_cursor (s : State) : (raiseFault .accOverflow s).cursor = s.cursor := rfl
@[simp] theorem raiseFault_active (s : State) : (raiseFault .accOverflow s).active = s.active := rfl
@[simp] theorem raiseFault_connected (s : State) : (raiseFault .accOverflow s).connected = s.connected := rfl
@[simp] theorem raiseFault_fgPhase (s : State) : (raiseFault .accOverflow s).fgPhase = s.fgPhase := rfl
@[simp] theorem raiseFault_pendX (s : State) : (raiseFault .accOverflow s).pendX = s.pendX := rfl
@[simp] theorem raiseFault_pendY (s : State) : (raiseFault .accOverflow s).pendY = s.pendY := rfl
@[simp] theorem raiseFault_drvD (s : State) : (raiseFault .accOverflow s).drvD = s.drvD := rfl
@[simp] theorem raiseFault_drvB (s : State) : (raiseFault .accOverflow s).drvB = s.drvB := rfl
@[simp] theorem raiseFault_clkLevel (s : State) : (raiseFault .accOverflow s).clkLevel = s.clkLevel := rfl
@[simp] theorem raiseFault_faults (s : State) : (raiseFault .accOverflow s).faults = ⟨true⟩ := rfl
@[simp] theorem raiseFault_refusals (s : State) : (raiseFault .accOverflow s).refusals = s.refusals := rfl
@[simp] theorem raiseFault_out (s : State) : (raiseFault .accOverflow s).out = s.out := rfl
@[simp] theorem raiseFault_cfg (s : State) : (raiseFault .accOverflow s).cfg = s.cfg := rfl
@[simp] theorem raiseFault_inbox (s : State) : (raiseFault .accOverflow s).inbox = s.inbox := rfl

@[simp] theorem refuseEvent_accX (s : State) : (refuseEvent s).accX = s.accX := rfl
@[simp] theorem refuseEvent_accY (s : State) : (refuseEvent s).accY = s.accY := rfl
@[simp] theorem refuseEvent_dirty (s : State) : (refuseEvent s).dirty = s.dirty := rfl
@[simp] theorem refuseEvent_frame (s : State) : (refuseEvent s).frame = s.frame := rfl
@[simp] theorem refuseEvent_cursor (s : State) : (refuseEvent s).cursor = s.cursor := rfl
@[simp] theorem refuseEvent_active (s : State) : (refuseEvent s).active = s.active := rfl
@[simp] theorem refuseEvent_connected (s : State) : (refuseEvent s).connected = s.connected := rfl
@[simp] theorem refuseEvent_fgPhase (s : State) : (refuseEvent s).fgPhase = s.fgPhase := rfl
@[simp] theorem refuseEvent_pendX (s : State) : (refuseEvent s).pendX = s.pendX := rfl
@[simp] theorem refuseEvent_pendY (s : State) : (refuseEvent s).pendY = s.pendY := rfl
@[simp] theorem refuseEvent_drvD (s : State) : (refuseEvent s).drvD = s.drvD := rfl
@[simp] theorem refuseEvent_drvB (s : State) : (refuseEvent s).drvB = s.drvB := rfl
@[simp] theorem refuseEvent_clkLevel (s : State) : (refuseEvent s).clkLevel = s.clkLevel := rfl
@[simp] theorem refuseEvent_faults (s : State) : (refuseEvent s).faults = s.faults := rfl
@[simp] theorem refuseEvent_refusals (s : State) : (refuseEvent s).refusals = ⟨true, s.refusals.illegalLineop⟩ := rfl
@[simp] theorem refuseEvent_out (s : State) : (refuseEvent s).out = s.out := rfl
@[simp] theorem refuseEvent_cfg (s : State) : (refuseEvent s).cfg = s.cfg := rfl
@[simp] theorem refuseEvent_inbox (s : State) : (refuseEvent s).inbox = s.inbox := rfl

@[simp] theorem refuseLineOp_accX (s : State) : (refuseLineOp s).accX = s.accX := rfl
@[simp] theorem refuseLineOp_accY (s : State) : (refuseLineOp s).accY = s.accY := rfl
@[simp] theorem refuseLineOp_dirty (s : State) : (refuseLineOp s).dirty = s.dirty := rfl
@[simp] theorem refuseLineOp_frame (s : State) : (refuseLineOp s).frame = s.frame := rfl
@[simp] theorem refuseLineOp_cursor (s : State) : (refuseLineOp s).cursor = s.cursor := rfl
@[simp] theorem refuseLineOp_active (s : State) : (refuseLineOp s).active = s.active := rfl
@[simp] theorem refuseLineOp_connected (s : State) : (refuseLineOp s).connected = s.connected := rfl
@[simp] theorem refuseLineOp_fgPhase (s : State) : (refuseLineOp s).fgPhase = s.fgPhase := rfl
@[simp] theorem refuseLineOp_pendX (s : State) : (refuseLineOp s).pendX = s.pendX := rfl
@[simp] theorem refuseLineOp_pendY (s : State) : (refuseLineOp s).pendY = s.pendY := rfl
@[simp] theorem refuseLineOp_drvD (s : State) : (refuseLineOp s).drvD = s.drvD := rfl
@[simp] theorem refuseLineOp_drvB (s : State) : (refuseLineOp s).drvB = s.drvB := rfl
@[simp] theorem refuseLineOp_clkLevel (s : State) : (refuseLineOp s).clkLevel = s.clkLevel := rfl
@[simp] theorem refuseLineOp_faults (s : State) : (refuseLineOp s).faults = s.faults := rfl
@[simp] theorem refuseLineOp_refusals (s : State) : (refuseLineOp s).refusals = ⟨s.refusals.illegalEvent, true⟩ := rfl
@[simp] theorem refuseLineOp_out (s : State) : (refuseLineOp s).out = s.out := rfl
@[simp] theorem refuseLineOp_cfg (s : State) : (refuseLineOp s).cfg = s.cfg := rfl
@[simp] theorem refuseLineOp_inbox (s : State) : (refuseLineOp s).inbox = s.inbox := rfl

@[simp] theorem requestReport_accX (s : State) : (requestReport s).accX = s.accX := rfl
@[simp] theorem requestReport_accY (s : State) : (requestReport s).accY = s.accY := rfl
@[simp] theorem requestReport_dirty (s : State) : (requestReport s).dirty = s.dirty := rfl
@[simp] theorem requestReport_frame (s : State) : (requestReport s).frame = s.frame := rfl
@[simp] theorem requestReport_cursor (s : State) : (requestReport s).cursor = s.cursor := rfl
@[simp] theorem requestReport_active (s : State) : (requestReport s).active = s.active := rfl
@[simp] theorem requestReport_connected (s : State) : (requestReport s).connected = s.connected := rfl
@[simp] theorem requestReport_fgPhase (s : State) : (requestReport s).fgPhase = s.fgPhase := rfl
@[simp] theorem requestReport_pendX (s : State) : (requestReport s).pendX = s.pendX := rfl
@[simp] theorem requestReport_pendY (s : State) : (requestReport s).pendY = s.pendY := rfl
@[simp] theorem requestReport_drvD (s : State) : (requestReport s).drvD = s.drvD := rfl
@[simp] theorem requestReport_drvB (s : State) : (requestReport s).drvB = s.drvB := rfl
@[simp] theorem requestReport_clkLevel (s : State) : (requestReport s).clkLevel = s.clkLevel := rfl
@[simp] theorem requestReport_faults (s : State) : (requestReport s).faults = s.faults := rfl
@[simp] theorem requestReport_refusals (s : State) : (requestReport s).refusals = s.refusals := rfl
@[simp] theorem requestReport_out (s : State) : (requestReport s).out = s.out ++ [.rptReq] := rfl
@[simp] theorem requestReport_cfg (s : State) : (requestReport s).cfg = s.cfg := rfl
@[simp] theorem requestReport_inbox (s : State) : (requestReport s).inbox = s.inbox := rfl

@[simp] theorem zeroAccumulator_accX (s : State) : (zeroAccumulator s).accX = 0 := rfl
@[simp] theorem zeroAccumulator_accY (s : State) : (zeroAccumulator s).accY = 0 := rfl
@[simp] theorem zeroAccumulator_dirty (s : State) : (zeroAccumulator s).dirty = false := rfl
@[simp] theorem zeroAccumulator_frame (s : State) : (zeroAccumulator s).frame = s.frame := rfl
@[simp] theorem zeroAccumulator_cursor (s : State) : (zeroAccumulator s).cursor = s.cursor := rfl
@[simp] theorem zeroAccumulator_active (s : State) : (zeroAccumulator s).active = s.active := rfl
@[simp] theorem zeroAccumulator_connected (s : State) : (zeroAccumulator s).connected = s.connected := rfl
@[simp] theorem zeroAccumulator_fgPhase (s : State) : (zeroAccumulator s).fgPhase = s.fgPhase := rfl
@[simp] theorem zeroAccumulator_pendX (s : State) : (zeroAccumulator s).pendX = s.pendX := rfl
@[simp] theorem zeroAccumulator_pendY (s : State) : (zeroAccumulator s).pendY = s.pendY := rfl
@[simp] theorem zeroAccumulator_drvD (s : State) : (zeroAccumulator s).drvD = s.drvD := rfl
@[simp] theorem zeroAccumulator_drvB (s : State) : (zeroAccumulator s).drvB = s.drvB := rfl
@[simp] theorem zeroAccumulator_clkLevel (s : State) : (zeroAccumulator s).clkLevel = s.clkLevel := rfl
@[simp] theorem zeroAccumulator_faults (s : State) : (zeroAccumulator s).faults = s.faults := rfl
@[simp] theorem zeroAccumulator_refusals (s : State) : (zeroAccumulator s).refusals = s.refusals := rfl
@[simp] theorem zeroAccumulator_out (s : State) : (zeroAccumulator s).out = s.out := rfl
@[simp] theorem zeroAccumulator_cfg (s : State) : (zeroAccumulator s).cfg = s.cfg := rfl
@[simp] theorem zeroAccumulator_inbox (s : State) : (zeroAccumulator s).inbox = s.inbox := rfl

@[simp] theorem setNibble_accX (n : Nibble) (s : State) : (setNibble n s).accX = s.accX := rfl
@[simp] theorem setNibble_accY (n : Nibble) (s : State) : (setNibble n s).accY = s.accY := rfl
@[simp] theorem setNibble_dirty (n : Nibble) (s : State) : (setNibble n s).dirty = s.dirty := rfl
@[simp] theorem setNibble_frame (n : Nibble) (s : State) : (setNibble n s).frame = s.frame := rfl
@[simp] theorem setNibble_cursor (n : Nibble) (s : State) : (setNibble n s).cursor = s.cursor := rfl
@[simp] theorem setNibble_active (n : Nibble) (s : State) : (setNibble n s).active = s.active := rfl
@[simp] theorem setNibble_connected (n : Nibble) (s : State) : (setNibble n s).connected = s.connected := rfl
@[simp] theorem setNibble_fgPhase (n : Nibble) (s : State) : (setNibble n s).fgPhase = s.fgPhase := rfl
@[simp] theorem setNibble_pendX (n : Nibble) (s : State) : (setNibble n s).pendX = s.pendX := rfl
@[simp] theorem setNibble_pendY (n : Nibble) (s : State) : (setNibble n s).pendY = s.pendY := rfl
@[simp] theorem setNibble_drvD (n : Nibble) (s : State) : (setNibble n s).drvD = nibbleDrivers n := rfl
@[simp] theorem setNibble_drvB (n : Nibble) (s : State) : (setNibble n s).drvB = s.drvB := rfl
@[simp] theorem setNibble_clkLevel (n : Nibble) (s : State) : (setNibble n s).clkLevel = s.clkLevel := rfl
@[simp] theorem setNibble_faults (n : Nibble) (s : State) : (setNibble n s).faults = s.faults := rfl
@[simp] theorem setNibble_refusals (n : Nibble) (s : State) : (setNibble n s).refusals = s.refusals := rfl
@[simp] theorem setNibble_out (n : Nibble) (s : State) : (setNibble n s).out = s.out := rfl
@[simp] theorem setNibble_cfg (n : Nibble) (s : State) : (setNibble n s).cfg = s.cfg := rfl
@[simp] theorem setNibble_inbox (n : Nibble) (s : State) : (setNibble n s).inbox = s.inbox := rfl

@[simp] theorem releaseAll_accX (s : State) : (releaseAll s).accX = s.accX := rfl
@[simp] theorem releaseAll_accY (s : State) : (releaseAll s).accY = s.accY := rfl
@[simp] theorem releaseAll_dirty (s : State) : (releaseAll s).dirty = s.dirty := rfl
@[simp] theorem releaseAll_frame (s : State) : (releaseAll s).frame = s.frame := rfl
@[simp] theorem releaseAll_cursor (s : State) : (releaseAll s).cursor = s.cursor := rfl
@[simp] theorem releaseAll_active (s : State) : (releaseAll s).active = s.active := rfl
@[simp] theorem releaseAll_connected (s : State) : (releaseAll s).connected = s.connected := rfl
@[simp] theorem releaseAll_fgPhase (s : State) : (releaseAll s).fgPhase = s.fgPhase := rfl
@[simp] theorem releaseAll_pendX (s : State) : (releaseAll s).pendX = s.pendX := rfl
@[simp] theorem releaseAll_pendY (s : State) : (releaseAll s).pendY = s.pendY := rfl
@[simp] theorem releaseAll_drvD (s : State) : (releaseAll s).drvD = dataReleased := rfl
@[simp] theorem releaseAll_drvB (s : State) : (releaseAll s).drvB = buttonsReleased s.cfg.numBtn s.drvB := rfl
@[simp] theorem releaseAll_clkLevel (s : State) : (releaseAll s).clkLevel = s.clkLevel := rfl
@[simp] theorem releaseAll_faults (s : State) : (releaseAll s).faults = s.faults := rfl
@[simp] theorem releaseAll_refusals (s : State) : (releaseAll s).refusals = s.refusals := rfl
@[simp] theorem releaseAll_out (s : State) : (releaseAll s).out = s.out := rfl
@[simp] theorem releaseAll_cfg (s : State) : (releaseAll s).cfg = s.cfg := rfl
@[simp] theorem releaseAll_inbox (s : State) : (releaseAll s).inbox = s.inbox := rfl

@[simp] theorem publish_accX (f : Vector Nibble 7) (s : State) : (publish f s).accX = s.accX := rfl
@[simp] theorem publish_accY (f : Vector Nibble 7) (s : State) : (publish f s).accY = s.accY := rfl
@[simp] theorem publish_dirty (f : Vector Nibble 7) (s : State) : (publish f s).dirty = s.dirty := rfl
@[simp] theorem publish_frame (f : Vector Nibble 7) (s : State) : (publish f s).frame = f := rfl
@[simp] theorem publish_cursor (f : Vector Nibble 7) (s : State) : (publish f s).cursor = 0 := rfl
@[simp] theorem publish_active (f : Vector Nibble 7) (s : State) : (publish f s).active = true := rfl
@[simp] theorem publish_connected (f : Vector Nibble 7) (s : State) : (publish f s).connected = s.connected := rfl
@[simp] theorem publish_fgPhase (f : Vector Nibble 7) (s : State) : (publish f s).fgPhase = s.fgPhase := rfl
@[simp] theorem publish_pendX (f : Vector Nibble 7) (s : State) : (publish f s).pendX = s.pendX := rfl
@[simp] theorem publish_pendY (f : Vector Nibble 7) (s : State) : (publish f s).pendY = s.pendY := rfl
@[simp] theorem publish_drvD (f : Vector Nibble 7) (s : State) : (publish f s).drvD = nibbleDrivers f[0] := rfl
@[simp] theorem publish_drvB (f : Vector Nibble 7) (s : State) : (publish f s).drvB = s.drvB := rfl
@[simp] theorem publish_clkLevel (f : Vector Nibble 7) (s : State) : (publish f s).clkLevel = s.clkLevel := rfl
@[simp] theorem publish_faults (f : Vector Nibble 7) (s : State) : (publish f s).faults = s.faults := rfl
@[simp] theorem publish_refusals (f : Vector Nibble 7) (s : State) : (publish f s).refusals = s.refusals := rfl
@[simp] theorem publish_out (f : Vector Nibble 7) (s : State) : (publish f s).out = s.out := rfl
@[simp] theorem publish_cfg (f : Vector Nibble 7) (s : State) : (publish f s).cfg = s.cfg := rfl
@[simp] theorem publish_inbox (f : Vector Nibble 7) (s : State) : (publish f s).inbox = s.inbox := rfl

@[simp] theorem emitActive_accX (s : State) : (emitActive s).accX = s.accX := rfl
@[simp] theorem emitActive_accY (s : State) : (emitActive s).accY = s.accY := rfl
@[simp] theorem emitActive_dirty (s : State) : (emitActive s).dirty = s.dirty := rfl
@[simp] theorem emitActive_frame (s : State) : (emitActive s).frame = s.frame := rfl
@[simp] theorem emitActive_cursor (s : State) : (emitActive s).cursor = nextCursor s.cursor := rfl
@[simp] theorem emitActive_active (s : State) : (emitActive s).active = s.active := rfl
@[simp] theorem emitActive_connected (s : State) : (emitActive s).connected = s.connected := rfl
@[simp] theorem emitActive_fgPhase (s : State) : (emitActive s).fgPhase = s.fgPhase := rfl
@[simp] theorem emitActive_pendX (s : State) : (emitActive s).pendX = s.pendX := rfl
@[simp] theorem emitActive_pendY (s : State) : (emitActive s).pendY = s.pendY := rfl
@[simp] theorem emitActive_drvD (s : State) : (emitActive s).drvD = nibbleDrivers s.frame[s.cursor] := rfl
@[simp] theorem emitActive_drvB (s : State) : (emitActive s).drvB = s.drvB := rfl
@[simp] theorem emitActive_clkLevel (s : State) : (emitActive s).clkLevel = s.clkLevel := rfl
@[simp] theorem emitActive_faults (s : State) : (emitActive s).faults = s.faults := rfl
@[simp] theorem emitActive_refusals (s : State) : (emitActive s).refusals = s.refusals := rfl
@[simp] theorem emitActive_out (s : State) : (emitActive s).out = s.out := rfl
@[simp] theorem emitActive_cfg (s : State) : (emitActive s).cfg = s.cfg := rfl
@[simp] theorem emitActive_inbox (s : State) : (emitActive s).inbox = s.inbox := rfl

end Sys2Proof.Machine
end

