-- ==== Sys2Proof/Laws/Ops.lean ====
section
/-! SUPPORT. One lemma per shared operation that says once what it can do; the inversion of `step`. Later proofs cite
these and do not unfold the operations. -/

namespace Sys2Proof.Machine

/-! ### Operands and arithmetic -/

theorem sext8_eq_toInt (b : Byte) : sext8 b = b.toInt := by
  simp only [sext8, BitVec.toInt_eq_toNat_cond]
  split <;> split <;> omega

theorem sext8_range (b : Byte) : -128 ≤ sext8 b ∧ sext8 b ≤ 127 := by
  have := b.isLt
  unfold sext8
  split <;> omega

theorem u8_toNat (v : Int) : ((u8 v).toNat : Int) = v % 256 := by
  simp only [u8, BitVec.toNat_ofInt]
  omega

theorem hi4_toNat (b : Byte) : (hi4 b).toNat = b.toNat / 16 := by
  have := b.isLt
  simp [hi4, BitVec.extractLsb'_toNat, Nat.shiftRight_eq_div_pow]
  omega

theorem lo4_toNat (b : Byte) : (lo4 b).toNat = b.toNat % 16 := by
  simp [lo4, BitVec.extractLsb'_toNat]

theorem byteOf_toNat (hi lo : Nibble) : (byteOf hi lo).toNat = hi.toNat * 16 + lo.toNat := by
  have h := lo.isLt
  simp only [byteOf, BitVec.toNat_append, Nat.shiftLeft_eq]
  rw [← Nat.shiftLeft_eq, ← Nat.shiftLeft_add_eq_or_of_lt h, Nat.shiftLeft_eq]

theorem byteOf_split (b : Byte) : byteOf (hi4 b) (lo4 b) = b := by
  apply BitVec.eq_of_toNat_eq
  rw [byteOf_toNat, hi4_toNat, lo4_toNat]
  omega

theorem accWord_toInt {v : Int} (h : inW v = true) : (BitVec.ofInt 32 v).toInt = v := by
  simp only [inW, Config.accMin, Config.accMax, Bool.and_eq_true, decide_eq_true_eq] at h
  rw [BitVec.toInt_ofInt]
  exact Int.bmod_eq_of_le (by omega) (by omega)

theorem clamp_eq_max_min (v : Int) : clamp v = max (-127) (min 127 v) := by
  simp only [clamp, Config.clampMax, Config.clampMin]
  split
  · omega
  · split <;> omega

/-! ### Accumulator -/

/-- What ACCUMULATE can do (R102, R103). -/
theorem accumulate_cases (dx dy : Int) (s : State) :
    (inW (s.accX.toInt + scaleSample s.cfg dx) = true ∧ inW (s.accY.toInt + scaleSample s.cfg dy) = true ∧
      accumulate dx dy s = { s with
        accX := BitVec.ofInt 32 (s.accX.toInt + scaleSample s.cfg dx)
        accY := BitVec.ofInt 32 (s.accY.toInt + scaleSample s.cfg dy)
        dirty := true }) ∨
    (¬(inW (s.accX.toInt + scaleSample s.cfg dx) = true ∧ inW (s.accY.toInt + scaleSample s.cfg dy) = true) ∧
      accumulate dx dy s = raiseFault .accOverflow s) := by
  by_cases h : inW (s.accX.toInt + scaleSample s.cfg dx) = true ∧ inW (s.accY.toInt + scaleSample s.cfg dy) = true
  · exact .inl ⟨h.1, h.2, by simp [accumulate, h.1, h.2, setDirty]⟩
  · refine .inr ⟨h, ?_⟩
    simp only [accumulate]
    rw [if_neg (by simpa using h)]

/-! ### Lines -/

@[simp] theorem nibbleDrivers_get (n : Nibble) (i : Fin 4) :
    (nibbleDrivers n)[i] = if n.getLsbD i.val then .rel else .low := by
  simp [nibbleDrivers, Driver.ofBit, nibbleBit]

@[simp] theorem dataReleased_get (i : Fin 4) : dataReleased[i] = .rel := by
  revert i; decide

@[simp] theorem buttonsReleased_get (n : Fin 3) (b : Vector Driver 2) (k : Fin 2) :
    (buttonsReleased n b)[k] = if k.val < n.val then .rel else b[k] := by
  simp [buttonsReleased]

/-- A button line's driver after BUTTON_UPDATE (R185). -/
def buttonsAfter (c : Config) (b0 : Byte) (b : Vector Driver 2) : Vector Driver 2 :=
  Vector.ofFn fun k =>
    if c.buttonMode = .fromReport ∧ k.val < c.numBtn.val then Driver.ofPressed (buttonBit b0 k) else b[k]

@[simp] theorem buttonsAfter_get (c : Config) (b0 : Byte) (b : Vector Driver 2) (k : Fin 2) :
    (buttonsAfter c b0 b)[k] =
      if c.buttonMode = .fromReport ∧ k.val < c.numBtn.val then (if b0.getLsbD k.val then .low else .rel) else b[k] := by
  simp only [buttonsAfter, Fin.getElem_fin, Vector.getElem_ofFn]
  rfl

/-- BUTTON_UPDATE writes the button lines and nothing else (R185). -/
theorem buttonUpdate_eq (b0 : Byte) (s : State) :
    buttonUpdate b0 s = { s with drvB := buttonsAfter s.cfg b0 s.drvB } := by
  have key : (buttonUpdate b0 s).drvB = buttonsAfter s.cfg b0 s.drvB := by
    ext k hk
    have hk' : k = 0 ∨ k = 1 := by omega
    cases hm : s.cfg.buttonMode <;> rcases hk' with rfl | rfl <;>
      by_cases h0 : 0 < s.cfg.numBtn.val <;> by_cases h1 : 1 < s.cfg.numBtn.val <;>
      simp [buttonUpdate, updateButton, buttonsAfter, setLine, hm, h0, h1]
  have rest : buttonUpdate b0 s = { s with drvB := (buttonUpdate b0 s).drvB } := by
    cases hm : s.cfg.buttonMode <;>
      by_cases h0 : 0 < s.cfg.numBtn.val <;> by_cases h1 : 1 < s.cfg.numBtn.val <;>
      simp [buttonUpdate, updateButton, setLine, hm, h0, h1]
  rw [rest, key]

theorem accepted_iff (len : BitVec 4) : accepted len = true ↔ 3 ≤ len.toNat := by
  simp [accepted]

/-- What REPORT can do (R102, R103, R181, R182). -/
theorem reportStep_cases (len : BitVec 4) (b0 b1 b2 : Byte) (s : State) :
    (len.toNat < 3 ∧ reportStep len b0 b1 b2 s = requestReport s) ∨
    (3 ≤ len.toNat ∧ inW (s.accX.toInt + scaleSample s.cfg (sext8 b1)) = true ∧
      inW (s.accY.toInt + scaleSample s.cfg (sext8 b2)) = true ∧
      reportStep len b0 b1 b2 s = requestReport { s with
        accX := BitVec.ofInt 32 (s.accX.toInt + scaleSample s.cfg (sext8 b1))
        accY := BitVec.ofInt 32 (s.accY.toInt + scaleSample s.cfg (sext8 b2))
        dirty := true
        drvB := buttonsAfter s.cfg b0 s.drvB }) ∨
    (3 ≤ len.toNat ∧ ¬(inW (s.accX.toInt + scaleSample s.cfg (sext8 b1)) = true ∧
      inW (s.accY.toInt + scaleSample s.cfg (sext8 b2)) = true) ∧
      reportStep len b0 b1 b2 s =
        requestReport { raiseFault .accOverflow s with drvB := buttonsAfter s.cfg b0 s.drvB }) := by
  by_cases hl : accepted len = true
  · have hl' := (accepted_iff len).1 hl
    rcases accumulate_cases (sext8 b1) (sext8 b2) s with ⟨hx, hy, h⟩ | ⟨hn, h⟩
    · exact .inr (.inl ⟨hl', hx, hy, by simp [reportStep, hl, h, buttonUpdate_eq]⟩)
    · exact .inr (.inr ⟨hl', hn, by simp [reportStep, hl, h, buttonUpdate_eq]⟩)
  · refine .inl ⟨?_, by simp [reportStep, hl]⟩
    rw [accepted_iff] at hl
    omega

/-! ### Emission and the foreground -/

/-- What EDGE_DETECT can do (R140 to R143). -/
theorem edgeDetect_cases (lvl : Bool) (s : State) :
    (lvl = s.clkLevel ∧ edgeDetect lvl s = s) ∨
    (lvl ≠ s.clkLevel ∧ s.active = true ∧ edgeDetect lvl s = emitActive { s with clkLevel := lvl }) ∨
    (lvl ≠ s.clkLevel ∧ s.active = false ∧ edgeDetect lvl s = releaseAll { s with clkLevel := lvl }) := by
  by_cases h : lvl = s.clkLevel
  · exact .inl ⟨h, by simp [edgeDetect, h]⟩
  · cases ha : s.active
    · exact .inr (.inr ⟨h, rfl, by simp [edgeDetect, h, emit, emitIdle, ha]⟩)
    · exact .inr (.inl ⟨h, rfl, by simp [edgeDetect, h, emit, ha]⟩)

/-- What FG can do (R127, R188, R189). -/
theorem fgStep_cases (s : State) :
    (s.fgPhase = .idle ∧ s.dirty = false ∧ fgStep s = s) ∨
    (s.fgPhase = .idle ∧ s.dirty = true ∧ fgStep s = { zeroAccumulator s with
      pendX := clamp s.accX.toInt, pendY := clamp s.accY.toInt, fgPhase := .pending }) ∨
    (s.fgPhase = .pending ∧ publishesPair s = false ∧ fgStep s = { s with fgPhase := .idle }) ∨
    (s.fgPhase = .pending ∧ publishesPair s = true ∧
      fgStep s = publish (build s.cfg s.pendX s.pendY) { s with fgPhase := .idle }) := by
  cases hp : s.fgPhase
  · cases hd : s.dirty
    · exact .inl ⟨rfl, rfl, by simp [fgStep, hp, fgPhase1, hd]⟩
    · exact .inr (.inl ⟨rfl, rfl, by simp [fgStep, hp, fgPhase1, hd, drain]⟩)
  · cases hq : publishesPair s
    · exact .inr (.inr (.inl ⟨rfl, rfl, by simp [fgStep, hp, fgPhase2, hq]⟩))
    · exact .inr (.inr (.inr ⟨rfl, rfl, by simp [fgStep, hp, fgPhase2, hq]⟩))

theorem nextCursor_val (c : Fin 7) : (nextCursor c).val = (c.val + 1) % 7 := rfl

/-- A pair other than (0, 0) is published under either policy (R127). -/
theorem publishesPair_of_motion {s : State} (h : s.pendX ≠ 0 ∨ s.pendY ≠ 0) : publishesPair s = true := by
  rcases h with h | h <;> simp [publishesPair, h]

/-! ### exec and step -/

/-- The state an instruction leads to: no instruction stops (R210). -/
def effect (i : Instr) (s : State) : State :=
  match i with
  | .reset => resetStep s
  | .mount => mountStep s
  | .unmount => unmountStep s
  | .report len b0 b1 b2 => reportStep len b0 b1 b2 s
  | .fg => fgStep s
  | .clk lvl => edgeDetect lvl s
  | .drvlo line => onLine line (driveLow line) s
  | .rel line => onLine line (release line) s
  | .setnib n => setNibble n s
  | .relall => releaseAll s

theorem exec_eq_effect (i : Instr) (s : State) : exec i s = .next (effect i s) := by
  cases i <;> rfl

/-- What a step can do: nothing when no word waits, one instruction, or one mark. -/
theorem step_cases (s : State) :
    (s.inbox = [] ∧ step s = .next s) ∨
    (∃ c rest i, s.inbox = c :: rest ∧ decode s.cfg.numBtn c = .instr i ∧
      step s = .next (effect i { s with inbox := rest })) ∨
    (∃ c rest e, s.inbox = c :: rest ∧ decode s.cfg.numBtn c = .illegal e ∧
      step s = .next (refuseWord c { s with inbox := rest })) := by
  cases hs : s.inbox with
  | nil => exact .inl ⟨rfl, by simp [step, takeInput, hs]⟩
  | cons c rest =>
    cases hd : decode s.cfg.numBtn c with
    | instr i =>
      exact .inr (.inl ⟨c, rest, i, rfl, hd, by simp [step, takeInput, hs, hd, exec_eq_effect]⟩)
    | illegal e => exact .inr (.inr ⟨c, rest, e, rfl, hd, by simp [step, takeInput, hs, hd]⟩)

end Sys2Proof.Machine
end

