-- ==== Sys2Proof/Laws/PerInstr.lean ====
section
/-! SUPPORT. The round trip of each instruction's encoding, one lemma per constructor (R70 to R77): decoding the encoding
of an instruction the block has gives it back. -/

namespace Sys2Proof.Laws

/-- Decoding the encoding of `i` on a block that has `i` gives `i`. -/
def RoundTrip.Statement (i : Instr) : Prop :=
  ∀ numBtn : Fin 3, i.wf numBtn = true → decode numBtn (encode i) = .instr i

theorem RoundTrip.reset : RoundTrip.Statement .reset := fun _ _ => rfl

theorem RoundTrip.mount : RoundTrip.Statement .mount := fun _ _ => rfl

theorem RoundTrip.unmount : RoundTrip.Statement .unmount := fun _ _ => rfl

theorem RoundTrip.report (len : BitVec 4) (b0 b1 b2 : Byte) : RoundTrip.Statement (.report len b0 b1 b2) := by
  intro numBtn _
  have hl := len.isLt
  have h0 := b0.isLt
  have h1 := b1.isLt
  have h2 := b2.isLt
  simp only [encode, decode, decodeEvent]
  generalize hw : (0x4#4 ++ len ++ b0 ++ b1 ++ b2 : BitVec 32) = w
  have hn : w.toNat = 0x40000000 + len.toNat * 2 ^ 24 + b0.toNat * 2 ^ 16 + b1.toNat * 2 ^ 8 + b2.toNat := by
    rw [← hw]; exact reportWord_toNat len b0 b1 b2
  have ev : (w.extractLsb' 28 4).toNat = 4 := by rw [field_toNat]; omega
  have f0 : w.extractLsb' 24 4 = len := by rw [field_eq_iff]; omega
  have f1 : w.extractLsb' 16 8 = b0 := by rw [field_eq_iff]; omega
  have f2 : w.extractLsb' 8 8 = b1 := by rw [field_eq_iff]; omega
  have f3 : w.extractLsb' 0 8 = b2 := by rw [field_eq_iff]; omega
  rw [ev, f0, f1, f2, f3]
  rfl

theorem RoundTrip.fg : RoundTrip.Statement .fg := fun _ _ => rfl

theorem RoundTrip.clk (lvl : Bool) : RoundTrip.Statement (.clk lvl) := by
  intro _ _
  cases lvl <;> rfl

theorem RoundTrip.drvlo (line : Line) : RoundTrip.Statement (.drvlo line) := by
  unfold RoundTrip.Statement
  cases line with
  | d i => revert i; decide
  | b k => revert k; decide

theorem RoundTrip.rel (line : Line) : RoundTrip.Statement (.rel line) := by
  unfold RoundTrip.Statement
  cases line with
  | d i => revert i; decide
  | b k => revert k; decide

theorem RoundTrip.setnib (n : Nibble) : RoundTrip.Statement (.setnib n) := by
  unfold RoundTrip.Statement
  revert n; decide

theorem RoundTrip.relall : RoundTrip.Statement .relall := fun _ _ => rfl

end Sys2Proof.Laws
end

