-- ==== Sys2Proof/Laws/Run.lean ====
section
/-! SUPPORT. Runs of the machine, one step at a time; what the next step's instruction does to a state; and the packaged
induction over a run. -/

namespace Sys2Proof.Safety

open Sys2Proof.Machine

theorem step_next (s : State) : ∃ t, step s = .next t := by
  rcases step_cases s with ⟨_, h⟩ | ⟨_, _, _, _, _, h⟩ | ⟨_, _, _, _, _, h⟩ <;> exact ⟨_, h⟩

theorem runs_zero {s t : State} : runs 0 s t ↔ s = t :=
  ⟨fun h => Host.Outcome.next.inj h, fun h => h ▸ rfl⟩

/-- One step more, of any machine. -/
theorem run_of_step (M : Host.Core) (k : Nat) (s u : M.State) (h : M.step s = .next u) :
    M.run (k + 1) s = M.run k u := by
  simp [Host.Core.run, h]

theorem runs_succ {k : Nat} {s t : State} : runs (k + 1) s t ↔ ∃ u, step s = .next u ∧ runs k u t := by
  obtain ⟨u, hu⟩ := step_next s
  have hrun : Host.Core.run Sys2Proof.core (k + 1) s = Host.Core.run Sys2Proof.core k u := run_of_step Sys2Proof.core k s u hu
  unfold runs
  rw [hrun]
  exact ⟨fun h => ⟨u, hu, h⟩, fun ⟨v, hv, h⟩ => by rw [hu] at hv; cases hv; exact h⟩

/-- A relation that holds of a state with itself, and that a step followed by a run carries on, holds along every run. -/
theorem runs_induction {P : Nat → State → State → Prop} (base : ∀ s, P 0 s s)
    (next : ∀ k s u t, step s = .next u → runs k u t → P k u t → P (k + 1) s t) :
    ∀ k s t, runs k s t → P k s t := by
  intro k
  induction k with
  | zero => intro s t h; rw [runs_zero] at h; subst h; exact base s
  | succ k ih =>
    intro s t h
    obtain ⟨u, hu, hr⟩ := runs_succ.1 h
    exact next k s u t hu hr (ih u t hr)

theorem during_succ {p : State → Bool} {k : Nat} {s u : State} (hu : step s = .next u)
    (h : during p (k + 1) s) : p s = true ∧ during p k u :=
  ⟨h 0 (by omega) s (runs_zero.2 rfl),
    fun j hj v hv => h (j + 1) (by omega) v (runs_succ.2 ⟨u, hu, hv⟩)⟩

/-- What a step does, in terms of the instruction `nextInstr` names: it is that instruction's effect on the state without
the word, or a mark, or nothing. -/
theorem step_by_nextInstr {s t : State} (h : step s = .next t) :
    (∃ i rest c, s.inbox = c :: rest ∧ decode s.cfg.numBtn c = .instr i ∧ nextInstr s = some i ∧
      t = effect i { s with inbox := rest }) ∨
    (nextInstr s = none ∧ ((s.inbox = [] ∧ t = s) ∨
      ∃ c rest, s.inbox = c :: rest ∧ t = refuseWord c { s with inbox := rest })) := by
  rcases step_cases s with ⟨hs, h'⟩ | ⟨c, rest, i, hs, hd, h'⟩ | ⟨c, rest, e, hs, hd, h'⟩ <;>
    rw [h'] at h <;> cases h
  · exact .inr ⟨by simp [nextInstr, hs], .inl ⟨hs, rfl⟩⟩
  · exact .inl ⟨i, rest, c, hs, hd, by simp [nextInstr, hs, hd], rfl⟩
  · exact .inr ⟨by simp [nextInstr, hs, hd], .inr ⟨c, rest, hs, rfl⟩⟩

end Sys2Proof.Safety
end

