-- ==== Sys2Proof/Tests/Slice0.lean ====
section
/-! SUPPORT. Tests, each a named theorem. Expected results come from spec/30_encoding.md (R74, R78, R79, R83) and the
vectors of spec/95_test_vectors.md, whose numbers the comments give. The last part has, for each obligation with
hypotheses, concrete values that meet them together. -/

namespace Sys2Proof.Tests

open Sys2Proof.Machine Sys2Proof.Safety

/-- A configuration for tests: values of the OPEN parameters that the spec does not fix. -/
def cfg : Config where
  numBtn := 2
  buttonMode := .fromReport
  idNibble := 0x9
  padNibble := 0x3
  scale := 1
  ties := .awayFromZero
  zeroPolicy := .skip
  clkInit := false
  tEmitMax := 1
  tDeferMax := 2

/-- Power-on with that configuration. -/
def start : State := State.powerOn cfg

/-- The frame of (10, 0) under the configuration (Scenario A). -/
def tenFrame : Vector Nibble 7 := #v[0x9, 0x3, 0x3, 0x0, 0xA, 0x0, 0x0]

/-- That frame active, at a cursor. -/
def sending (c : Fin 7) : State := { start with active := true, frame := tenFrame, cursor := c }

/-- A pair held between the phases. -/
def holding (x y : Int) : State := { start with fgPhase := .pending, pendX := x, pendY := y }

/-- The state after one step that takes the word. -/
def after (nbits w : Nat) (s : State) : Option State :=
  match step (s.withFetchWord nbits w) with
  | .next t => some t
  | .fault _ => none
  | .refused _ => none

/-- The state after one instruction. -/
def ran (i : Instr) (s : State) : State :=
  match exec i s with
  | .next t => t
  | .fault _ => s
  | .refused _ => s

/-! ## WellFormed: an ill-formed term for its one check, and the boundaries -/

theorem test_wf_refuses_absent_button_drvlo : Instr.wf 1 (.drvlo (.b 1)) = false ∧ Instr.wf 0 (.drvlo (.b 0)) = false := by
  decide

theorem test_wf_refuses_absent_button_rel : Instr.wf 1 (.rel (.b 1)) = false ∧ Instr.wf 0 (.rel (.b 0)) = false := by
  decide

theorem test_wf_accepts_present_lines :
    Instr.wf 2 (.drvlo (.b 1)) = true ∧ Instr.wf 1 (.rel (.b 0)) = true ∧ Instr.wf 0 (.drvlo (.d 3)) = true := by
  decide

/-! ## Decoding: R83's words, and one word of each kind R78 and R79 call illegal -/

theorem test_decode_reset : decodeEvent 0x10000000 = .instr .reset := by decide
theorem test_decode_mount : decodeEvent 0x20000000 = .instr .mount := by decide
theorem test_decode_unmount : decodeEvent 0x30000000 = .instr .unmount := by decide
theorem test_decode_report : decodeEvent 0x44017F80 = .instr (.report 4 0x01 0x7F 0x80) := by decide
theorem test_decode_fg : decodeEvent 0x50000000 = .instr .fg := by decide
theorem test_decode_clk :
    decodeEvent 0x60000001 = .instr (.clk true) ∧ decodeEvent 0x60000000 = .instr (.clk false) := by decide
theorem test_decode_drvlo :
    decodeLineOp 0 0x02 = .instr (.drvlo (.d 2)) ∧ decodeLineOp 2 0x05 = .instr (.drvlo (.b 1)) := by decide
theorem test_decode_rel :
    decodeLineOp 2 0x45 = .instr (.rel (.b 1)) ∧ decodeLineOp 0 0x43 = .instr (.rel (.d 3)) := by decide
theorem test_decode_setnib : decodeLineOp 0 0x8A = .instr (.setnib 0xA) := by decide
theorem test_decode_relall : decodeLineOp 0 0xC0 = .instr .relall := by decide

/-- IF13 to IF19. -/
theorem test_decode_illegal_events :
    decodeEvent 0x00000000 = .illegal .reservedClass ∧ decodeEvent 0x10000001 = .illegal .mustBeZero ∧
    decodeEvent 0x20000100 = .illegal .mustBeZero ∧ decodeEvent 0x50000001 = .illegal .mustBeZero ∧
    decodeEvent 0x60000002 = .illegal .mustBeZero ∧ decodeEvent 0x7ABCDEF0 = .illegal .reservedClass ∧
    decodeEvent 0xFFFFFFFF = .illegal .reservedClass := by decide

/-- LN10 to LN14. -/
theorem test_decode_illegal_line_ops :
    decodeLineOp 2 0x06 = .illegal .reservedLine ∧ decodeLineOp 2 0x08 = .illegal .mustBeZero ∧
    decodeLineOp 0 0x04 = .illegal .absentButton ∧ decodeLineOp 1 0x05 = .illegal .absentButton ∧
    decodeLineOp 2 0x90 = .illegal .mustBeZero ∧ decodeLineOp 2 0xC1 = .illegal .mustBeZero := by decide

/-- A 64-byte report has length 15 (IF5), and a short one its own length (R73). -/
theorem test_report_buffer :
    reportOf 0xEE ([0x00, 0x02, 0x03] ++ List.replicate 61 0xFF) = .report 15 0x00 0x02 0x03 ∧
    reportOf 0xEE [0x05] = .report 1 0x05 0xEE 0xEE := by decide

/-- The host's two entry points. -/
theorem test_table_words :
    decodeTableWord 8 0x45 = some (.rel (.b 1)) ∧ decodeTableWord 32 0x60000001 = some (.clk true) ∧
    decodeTableWord 32 0x60000002 = none := by decide

/-! ## Operations -/

/-- SC5, SC6, SC12, SC14: ties away from zero, a quotient below and a negative multiplier. -/
theorem test_scale :
    scaleSample { cfg with scale := mkRat 1 2 } 3 = 2 ∧ scaleSample { cfg with scale := mkRat 1 2 } (-3) = -2 ∧
    scaleSample { cfg with scale := mkRat 3 4 } (-3) = -2 ∧ scaleSample { cfg with scale := -1 } 5 = -5 := by
  decide

/-- CL5, CL6, CL10, CL13. -/
theorem test_clamp : clamp 130 = 127 ∧ clamp 128 = 127 ∧ clamp (-128) = -127 ∧ clamp (-2147483648) = -127 := by decide

/-- BD3, BD9. -/
theorem test_build :
    build cfg 127 (-127) = #v[0x9, 0x3, 0x3, 0x7, 0xF, 0x8, 0x1] ∧
    build cfg 5 (-2) = #v[0x9, 0x3, 0x3, 0x0, 0x5, 0xF, 0xE] := by decide

/-! ## One step of each instruction -/

/-- IF20: the lines released and the phase cancelled, the fault and the clock level kept. -/
theorem test_reset :
    (after 32 0x10000000 { holding 1 0 with
        active := true, clkLevel := true, faults := ⟨true⟩, drvB := #v[.low, .rel] }).map
      (fun t => (t.active, t.fgPhase, t.drvB, t.faults, t.clkLevel)) =
    some (false, .idle, #v[.rel, .rel], ⟨true⟩, true) := by decide

/-- IF9, IF10. -/
theorem test_mount :
    (after 32 0x20000000 start).map (fun t => (t.connected, t.out)) = some (true, [.rptReq]) ∧
    (after 32 0x20000000 { start with connected := true, out := [.rptReq] }).map (fun t => (t.connected, t.out)) =
      some (true, [.rptReq, .rptReq]) := by decide

/-- IF11: the lines stay. -/
theorem test_unmount :
    (after 32 0x30000000 { sending 3 with
        accX := 5, accY := -2, dirty := true, connected := true, drvD := #v[.low, .low, .low, .low] }).map
      (fun t => ((t.active, t.cursor, t.connected), (t.accX, t.accY, t.dirty), t.wireD)) =
    some ((false, 0, false), (0, 0, false), 0) := by decide

/-- IF4, IF7: a signed Y delta, and button bit 1 on B1. -/
theorem test_report_accepted :
    (after 32 0x44017F80 start).map (fun t => ((t.accX.toInt, t.accY.toInt, t.dirty), t.out, t.drvB)) =
      some ((127, -128, true), [.rptReq], #v[.low, .rel]) ∧
    (after 32 0x43020000 start).map (fun t => (t.accX, t.dirty, t.drvB)) = some (0, true, #v[.rel, .low]) := by
  decide

/-- IF6, AC7: a short report only asks for the next; a sum of 2^31 is not taken and marks the fault. -/
theorem test_report_discarded_and_overflow :
    (after 32 0x42030000 start).map (fun t => (t.dirty, t.drvB, t.out)) =
      some (false, #v[.rel, .rel], [.rptReq]) ∧
    (after 32 0x43000100 { start with accX := 2147483647, dirty := true }).map
      (fun t => (t.accX.toInt, t.faults.accOverflow, t.out)) = some (2147483647, true, [.rptReq]) := by decide

/-- DR4, and DR2. -/
theorem test_fg_phase_one :
    (after 32 0x50000000 { start with accX := 130, accY := -128, dirty := true }).map
      (fun t => (t.pendX, t.pendY, t.accX, t.dirty, t.fgPhase)) = some (127, -127, 0, false, .pending) ∧
    after 32 0x50000000 start = some start := by decide

/-- PB4, PB1. -/
theorem test_fg_phase_two :
    (after 32 0x50000000 { sending 5 with fgPhase := .pending, pendX := 1, pendY := 0 }).map
      (fun t => (t.frame, t.cursor, t.active, t.wireD)) =
      some (#v[0x9, 0x3, 0x3, 0x0, 0x1, 0x0, 0x0], 0, true, 0x9) ∧
    after 32 0x50000000 { sending 3 with fgPhase := .pending } = some (sending 3) := by decide

/-- EM5, EM6. -/
theorem test_clk_active :
    (after 32 0x60000001 (sending 4)).map (fun t => (t.wireD, t.cursor)) = some (0xA, 5) ∧
    (after 32 0x60000001 (sending 6)).map (fun t => (t.wireD, t.cursor)) = some (0x0, 0) := by decide

/-- EM3, EM1. -/
theorem test_clk_idle_and_no_edge :
    (after 32 0x60000001 { start with drvD := #v[.rel, .rel, .low, .low], drvB := #v[.low, .rel] }).map
      (fun t => (t.clkLevel, t.wireD, t.drvB)) = some (true, 0xF, #v[.rel, .rel]) ∧
    after 32 0x60000000 (sending 4) = some (sending 4) := by decide

/-- LN6, LN8. -/
theorem test_drvlo :
    (after 8 0x02 start).map (fun t => t.wireD) = some 0xB ∧
    (after 8 0x05 start).map (fun t => t.drvB) = some #v[.rel, .low] := by decide

/-- LN7. -/
theorem test_rel :
    (after 8 0x43 { start with drvD := #v[.low, .low, .low, .low] }).map (fun t => t.wireD) = some 0x8 := by decide

/-- LN3, LN4: bit i on Di, so a mirrored nibble would show. -/
theorem test_setnib :
    (after 8 0x85 start).map (fun t => t.drvD) = some #v[.rel, .low, .rel, .low] ∧
    (after 8 0x8C start).map (fun t => t.drvD) = some #v[.low, .low, .rel, .rel] := by decide

/-- LN9, and a block with no button line. -/
theorem test_relall :
    (after 8 0xC0 { start with drvD := #v[.low, .low, .low, .low], drvB := #v[.low, .low] }).map
      (fun t => (t.wireD, t.drvB)) = some (0xF, #v[.rel, .rel]) ∧
    (after 8 0xC0 { start with cfg := { cfg with numBtn := 0 }, drvB := #v[.low, .low] }).map (fun t => t.drvB) =
      some #v[.low, .low] := by decide

/-- IF18, LN10: only the mark. -/
theorem test_illegal_words_only_mark :
    after 32 0x7ABCDEF0 start = some { start with refusals := ⟨true, false⟩ } ∧
    after 8 0x06 start = some { start with refusals := ⟨false, true⟩ } := by decide

/-! ## Duties of the outside world (R240, R241, R244), on P1's events and at the bounds -/

theorem test_reports_paced :
    reportsPaced 0 [.mount, .report 3 0 3 0, .report 3 0 4 0, .fg] = true ∧ reportsPaced 0 [.report 3 0 3 0] = false ∧
    reportsPaced 0 [.mount, .unmount, .report 2 0 0 0] = true := by decide

theorem test_edges_spaced :
    edgesSpaced cfg [0, 2, 4] = true ∧ edgesSpaced cfg [0, 1] = false ∧ sampledSettled cfg 5 6 = true ∧
    sampledSettled cfg 5 5 = false := by decide

/-! ## Witnesses: for each obligation with hypotheses, values that meet them -/

/-- A run of one step. -/
theorem runs_one {s t : State} (h : step s = .next t) : runs 1 s t := runs_succ.2 ⟨t, h, runs_zero.2 rfl⟩

/-- With nothing waiting, a run stays where it is. -/
theorem runs_stay (k : Nat) {s : State} (h : s.inbox = []) : runs k s s := by
  induction k with
  | zero => exact runs_zero.2 rfl
  | succ k ih => exact runs_succ.2 ⟨s, by simp [step, takeInput, h], ih⟩

/-- A run, computed. -/
def walk : Nat → State → State
  | 0, s => s
  | k + 1, s =>
    match step s with
    | .next t => walk k t
    | .fault _ => s
    | .refused _ => s

theorem runs_walk (k : Nat) (s : State) : runs k s (walk k s) := by
  induction k generalizing s with
  | zero => exact runs_zero.2 rfl
  | succ k ih =>
    obtain ⟨u, hu⟩ := step_next s
    refine runs_succ.2 ⟨u, hu, ?_⟩
    simpa [walk, hu] using ih u

theorem runs_eq_walk {k : Nat} {s t : State} (h : runs k s t) : t = walk k s := by
  have h' := runs_walk k s
  unfold runs at h h'
  rw [h] at h'
  exact Host.Outcome.next.inj h'

/-- A premise over the states of a run, from the states computed. -/
theorem during_walk {p : State → Bool} {k : Nat} {s : State} (h : ∀ j < k, p (walk j s) = true) : during p k s :=
  fun j hj u hu => by rw [runs_eq_walk hu]; exact h j hj

/-- Words waiting at the event interface. -/
def waiting (ws : List EventWord) (s : State) : State := { s with inbox := ws.map .event }

/-- `n` clock edges waiting, the first one rising. -/
def edges : Nat → Bool → List EventWord
  | 0, _ => []
  | n + 1, lvl => (if lvl then 0x60000001 else 0x60000000) :: edges n (!lvl)

theorem test_witness_EncodedInstructionDecodesBack :
    (∀ i ∈ [Instr.reset, .mount, .unmount, .report 15 0xFF 0x80 0x7F, .fg, .clk true, .drvlo (.d 3), .rel (.d 0),
      .setnib 0xF, .relall], i.wf 0 = true) ∧
    Instr.wf 1 (.drvlo (.b 0)) = true ∧ Instr.wf 2 (.rel (.b 1)) = true := by decide

theorem test_witness_DecodedWordEncodesBack :
    decode 0 (.event 0x4FFF807F) = .instr (.report 15 0xFF 0x80 0x7F) ∧
    decode 2 (.lineOp 0x45) = .instr (.rel (.b 1)) := by decide

theorem test_witness_DecodingFollowsTheOpcodeTable :
    decodeEvent 0x60000001 = .instr (.clk true) ∧ decodeLineOp 1 0x04 = .instr (.drvlo (.b 0)) ∧
    decode 0 (.event 0x50000000) = .instr .fg ∧
    (Instr.row (.clk true)).holds (.event 0x60000000) = true ∧
    (Instr.row (.clk false)).holds (.event 0x60000000) = true := by decide

theorem test_witness_IllegalEventWordsOnlyMark :
    (waiting [0x0FFFFFFF, 0x50000000] start).inbox = .event 0x0FFFFFFF :: [.event 0x50000000] ∧
    (∀ w ∈ [0x0FFFFFFF#32, 0x70000000#32, 0xFFFFFFFF#32, 0x18000000#32, 0x50000001#32, 0x60000002#32, 0x6FFFFFFF#32],
      illegalEventWord w) ∧
    (¬illegalEventWord 0x10000000 ∧ ¬illegalEventWord 0x40000000 ∧ ¬illegalEventWord 0x4FFFFFFF ∧
      ¬illegalEventWord 0x60000001) :=
  ⟨rfl, by simp [illegalEventWord], by simp⟩

theorem test_witness_IllegalLineOpsOnlyMark :
    ({ start with inbox := [.lineOp 0x06] } : State).inbox = .lineOp 0x06 :: [] ∧
    illegalLineOp start.cfg.numBtn 0x06 ∧ illegalLineOp 2 0x07 ∧ illegalLineOp 1 0x05 ∧ illegalLineOp 0 0x44 ∧
    illegalLineOp 2 0x08 ∧ illegalLineOp 2 0x90 ∧ illegalLineOp 2 0xC1 ∧ illegalLineOp 2 0xFF ∧
    ¬illegalLineOp 2 0x05 ∧ ¬illegalLineOp 0 0x43 ∧ ¬illegalLineOp 0 0x8F ∧ ¬illegalLineOp 0 0xC0 ∧
    (agentOf .mount).isSome = true ∧ exec .mount start = .next (ran .mount start) :=
  ⟨rfl, by decide, by decide, by decide, by decide, by decide, by decide, by decide, by decide, by decide, by decide,
    by decide, by decide, by decide, rfl⟩

theorem test_witness_PseudoInstructionsExpand :
    deltaOperand "-128".toList = some 0x80 ∧ deltaOperand "127".toList = some 0x7F ∧
    byteOperand "255".toList = some 0xFF ∧ unsignedOf "2".toList = some 2 ∧ unsignedOf "0".toList = some 0 := by
  decide

theorem test_witness_BytesBeyondByteTwoAreIgnored :
    3 ≤ ([1, 2, 3] : List Byte).length ∧ 3 ≤ ([1, 2, 3, 4, 5] : List Byte).length ∧
    ([1, 2, 3] : List Byte).take 3 = ([1, 2, 3, 4, 5] : List Byte).take 3 := by decide

theorem test_witness_StepDispatchesTheEventWord :
    (waiting [0x50000000] start).inbox = .event 0x50000000 :: [] ∧
    decodeEvent 0 = .illegal .reservedClass ∧ decodeEvent 0x10000000 = .instr .reset ∧
    decodeEvent 0x20000000 = .instr .mount ∧ decodeEvent 0x30000000 = .instr .unmount ∧
    decodeEvent 0x40000000 = .instr (.report 0 0 0 0) ∧ decodeEvent 0x50000000 = .instr .fg ∧
    decodeEvent 0x60000000 = .instr (.clk false) := by decide

theorem test_witness_StepRunsTheDecodedInstruction :
    (waiting [0x50000000] start).inbox = .event 0x50000000 :: [] ∧
    decode (waiting [0x50000000] start).cfg.numBtn (.event 0x50000000) = .instr .fg ∧ start.inbox = [] := by decide

theorem test_witness_FetchedWordRuns :
    codeWordOf 32 0x4FFFFFFF = some (.event 0x4FFFFFFF) ∧
    decode start.cfg.numBtn (.event 0x4FFFFFFF) = .instr (.report 15 0xFF 0xFF 0xFF) ∧
    codeWordOf 8 0x45 = some (.lineOp 0x45) ∧ decode start.cfg.numBtn (.lineOp 0x45) = .instr (.rel (.b 1)) := by
  decide

/-- The block has no button line and both absent entries are released. -/
theorem test_witness_ResetGivesThePowerOnState :
    ∀ k : Fin 2, ({ sending 3 with cfg := { cfg with numBtn := 0 } } : State).cfg.numBtn.val ≤ k.val →
      (sending 3).drvB[k] = .rel := by decide

theorem test_witness_MountConnectsAndRequests : ({ start with connected := true } : State).connected = true := by decide

/-- The sums at both ends of the range (AC6, AC8), with the shortest and the longest accepted length. -/
theorem test_witness_AcceptedReportAccumulates :
    3 ≤ (3#4).toNat ∧ 3 ≤ (15#4).toNat ∧
    (2147483647 : Int) = (2147483520#32).toInt + scaleSample cfg (sext8 0x7F) ∧
    (-2147483648 : Int) = (BitVec.ofInt 32 (-2147483520)).toInt + scaleSample cfg (sext8 0x80) := by decide

/-- One past each end (AC7, AC9, AC10). -/
theorem test_witness_OverflowingReportOnlyMarks :
    3 ≤ (3#4).toNat ∧
    (2147483648 : Int) = (2147483647#32).toInt + scaleSample cfg (sext8 0x01) ∧
    (-2147483649 : Int) = (BitVec.ofInt 32 (-2147483648)).toInt + scaleSample cfg (sext8 0xFF) ∧
    ¬(-2147483648 ≤ (0 : Int) ∧ (0 : Int) ≤ 2147483647 ∧ -2147483648 ≤ (2147483648 : Int) ∧ (2147483648 : Int) ≤ 2147483647) ∧
    ¬(-2147483648 ≤ (-2147483649 : Int) ∧ (-2147483649 : Int) ≤ 2147483647 ∧ -2147483648 ≤ (0 : Int) ∧ (0 : Int) ≤ 2147483647) := by
  decide

theorem test_witness_UndersizedReportIsDiscarded : (0#4).toNat < 3 ∧ (2#4).toNat < 3 := by decide

theorem test_witness_ReportDrivesTheButtonLines :
    3 ≤ (3#4).toNat ∧ (start.cfg.buttonMode = .fromReport ∧ (1 : Fin 2).val < start.cfg.numBtn.val) ∧
    start.active = false ∧ true ≠ start.clkLevel := by decide

theorem test_witness_ForegroundDrainsAndClamps :
    (start.fgPhase = .idle ∧ start.dirty = false) ∧
    (({ start with dirty := true } : State).fgPhase = .idle ∧ ({ start with dirty := true } : State).dirty = true) := by
  decide

/-- The pair (0, 0) under each policy, and a pair with one zero. -/
theorem test_witness_ForegroundPublishesThePair :
    (holding 0 0).fgPhase = .pending ∧ (holding 0 0).pendX = 0 ∧ (holding 0 0).pendY = 0 ∧
    (holding 0 0).cfg.zeroPolicy = .skip ∧
    ¬((holding 0 1).pendX = 0 ∧ (holding 0 1).pendY = 0 ∧ (holding 0 1).cfg.zeroPolicy = .skip) ∧
    ¬((0 : Int) = 0 ∧ (0 : Int) = 0 ∧ ({ cfg with zeroPolicy := .publishZero } : Config).zeroPolicy = .skip) := by decide

theorem test_witness_ZeroMotionLeavesTheFrame :
    let s := { sending 3 with dirty := true }
    s.fgPhase = .idle ∧ s.dirty = true ∧ s.accX = 0 ∧ s.accY = 0 ∧ s.cfg.zeroPolicy = .skip := by decide

theorem test_witness_PublicationRestartsTheFrame :
    (holding 0 (-127)).fgPhase = .pending ∧ ((holding 0 (-127)).pendX ≠ 0 ∨ (holding 0 (-127)).pendY ≠ 0) ∧
    true ≠ (holding 0 (-127)).clkLevel := by decide

theorem test_witness_StepsBetweenThePhases :
    let s := { sending 6 with fgPhase := .pending, pendX := 1, pendY := 0 }
    s.fgPhase = .pending ∧ (s.pendX ≠ 0 ∨ s.pendY ≠ 0) ∧ s.active = true ∧ true ≠ s.clkLevel := by decide

theorem test_witness_EdgeIsWhollyBeforeOrAfterPublication :
    let s := { sending 6 with fgPhase := .pending, pendX := 127, pendY := -127 }
    s.active = true ∧ s.fgPhase = .pending ∧ (s.pendX ≠ 0 ∨ s.pendY ≠ 0) ∧ true ≠ s.clkLevel := by decide

theorem test_witness_ClockEdgeEmits :
    false = (sending 6).clkLevel ∧ (true ≠ (sending 6).clkLevel ∧ (sending 6).active = true) ∧
    (true ≠ start.clkLevel ∧ start.active = false) := by decide

theorem test_witness_EmitterReadsAndWritesItsOwn :
    let s := sending 6
    let s' := { sending 6 with accX := 7, dirty := true, connected := true }
    exec (.clk true) s = .next (ran (.clk true) s) ∧ exec (.clk true) s' = .next (ran (.clk true) s') ∧
    s'.clkLevel = s.clkLevel ∧ s'.active = s.active ∧ s'.cursor = s.cursor ∧ s'.frame = s.frame ∧
    s'.drvD = s.drvD ∧ s'.drvB = s.drvB ∧ s'.cfg.numBtn = s.cfg.numBtn :=
  ⟨rfl, rfl, rfl, rfl, rfl, rfl, rfl, rfl, rfl⟩

theorem test_witness_StoppedClockHoldsTheLines :
    let s := waiting [0x20000000] (sending 3)
    step s = .next (walk 1 s) ∧ eventsOnly s ∧ edgeNext s = false ∧ publicationNext s = false ∧
    nextInstr s ≠ some .reset ∧ nextInstr s ≠ some .unmount ∧
    ∀ len b0 b1 b2, nextInstr s ≠ some (.report len b0 b1 b2) :=
  ⟨rfl, by decide, by decide, by decide, by decide, by decide, fun _ _ _ _ h => by cases h⟩

/-- Eight edges and a report between them from a just published frame. -/
theorem test_witness_EdgesEmitTheFrameInCyclicOrder :
    let s := waiting (edges 4 true ++ [0x43000100] ++ edges 4 true) (sending 0)
    s.active = true ∧ s.cursor = 0 ∧ during keepsFrame 9 s ∧ runs 9 s (walk 9 s) ∧ edgesIn 9 s = 8 :=
  ⟨rfl, rfl, during_walk (by decide), runs_walk _ _, by decide⟩

theorem test_witness_SevenEdgesRepeatTheFrame :
    let s := waiting (edges 7 true) (sending 4)
    s.active = true ∧ during keepsFrame 7 s ∧ runs 7 s (walk 7 s) ∧ edgesIn 7 s = 7 :=
  ⟨rfl, during_walk (by decide), runs_walk _ _, by decide⟩

theorem test_witness_FirstEdgeReleasesEveryLine :
    let s := waiting [0x20000000, 0x43010100] start
    launched s ∧ during (fun v => !publicationNext v) 2 s ∧ runs 2 s (walk 2 s) ∧ true ≠ (walk 2 s).clkLevel ∧
    (∃ r : State, exec .reset r = .next (ran .reset (sending 3))) ∧
    during (fun v => !publicationNext v) 0 (ran .reset (sending 3)) ∧
    true ≠ (ran .reset (sending 3)).clkLevel :=
  ⟨⟨rfl, by decide⟩, during_walk (by decide), runs_walk _ _, by decide, ⟨sending 3, rfl⟩, during_walk (by decide),
    by decide⟩

theorem test_witness_ElementZeroAppearsTwice :
    (holding 10 0).fgPhase = .pending ∧ ((holding 10 0).pendX ≠ 0 ∨ (holding 10 0).pendY ≠ 0) ∧
    true ≠ (holding 10 0).clkLevel := by decide

theorem test_witness_DriveLowDrivesOneLine :
    (1 : Fin 2).val < start.cfg.numBtn.val ∧ (Line.b 1).present start.cfg.numBtn = true ∧
    (Line.d 3).present 0 = true ∧ dataIdle start.drvD := by
  unfold dataIdle; decide

theorem test_witness_ReleaseReleasesOneLine :
    (1 : Fin 2).val < start.cfg.numBtn.val ∧ (Line.b 1).present start.cfg.numBtn = true ∧
    showsNibble #v[.rel, .rel, .low, .rel] 0b1011 := by
  unfold showsNibble; decide

theorem test_witness_AbsentButtonLineIsRefused :
    ({ cfg with numBtn := 1 } : Config).numBtn.val ≤ (1 : Fin 2).val ∧
    ({ cfg with numBtn := 0 } : Config).numBtn.val ≤ (0 : Fin 2).val := by decide

theorem test_witness_ReleaseAllReleasesEveryLine :
    let s := { start with drvD := #v[.low, .low, .low, .low], drvB := #v[.low, .rel] }
    showsNibble s.drvD 0 ∧ s.button 0 = some .low ∧ (1 : Fin 2).val < s.cfg.numBtn.val := by
  unfold showsNibble; decide

theorem test_witness_WireLevelsFollowTheDrivers : (⟨true, false, false⟩ : Outside).extPullup = true := by decide

theorem test_witness_RoundTakesTheNearestInteger :
    |((3 : ℤ) : ℚ) - 13 / 5| < 1 / 2 ∧ |((-2 : ℤ) : ℚ) - -9 / 4| < 1 / 2 ∧ (0 : ℤ) ≤ 0 ∧ (-1 : ℤ) < 0 := by
  refine ⟨?_, ?_, by decide, by decide⟩ <;> rw [abs_lt] <;> norm_num

theorem test_witness_ScaledSampleRoundsTheExactProduct :
    cfg.scale = 1 ∧ ({ cfg with scale := 0 } : Config).scale = 0 := ⟨rfl, rfl⟩

theorem test_witness_ClampLaws :
    ∀ v ∈ [(-127 : Int), 0, 127], -127 ≤ v ∧ v ≤ 127 := by decide

theorem test_witness_NibbleSplitGivesBackTheByte :
    (∀ v ∈ [(-128 : Int), 0, 127], -128 ≤ v ∧ v ≤ 127) ∧ (∀ v ∈ [(-127 : Int), -1, 0, 127], -127 ≤ v ∧ v ≤ 127) ∧
    (0 : Int) ≤ 0 ∧ (-1 : Int) < 0 := by decide

theorem test_witness_BuiltFrameGivesBackThePair :
    ∀ v ∈ [(-127 : Int), -1, 0, 127], -127 ≤ v ∧ v ≤ 127 := by decide

theorem test_witness_DrainReturnsTheExactSum :
    start.accX = 0 ∧ start.accY = 0 ∧ start.cfg.scale = 1 ∧
    faultFree ([(3, 0), (4, 0), (3, 0)].foldl (fun u d => accumulate d.1 d.2 u) start) :=
  ⟨rfl, rfl, rfl, by decide⟩

theorem test_witness_AccumulatorHoldsTheExactSum :
    let s := waiting [0x43000300, 0x50000000, 0x430005FE] start
    runs 3 s (walk 3 s) ∧ faultFree (walk 3 s) := ⟨runs_walk _ _, by decide⟩

/-- A run with a report in it, and the longest run below the bound. -/
theorem test_witness_NoOverflowBelowTheReportBound :
    let s := waiting [0x43007F80] start
    (s.cfg.scale = 1 ∧ s.accX = 0 ∧ s.accY = 0 ∧ faultFree s ∧ 1 < 16777216 ∧ runs 1 s (walk 1 s)) ∧
    (16777215 < 16777216 ∧ runs 16777215 start start) :=
  ⟨⟨rfl, rfl, rfl, rfl, by decide, runs_walk _ _⟩, by decide, runs_stay _ rfl⟩

theorem test_witness_SideEffectsAndIdempotency :
    (sending 6).active = true ∧ true ≠ (sending 6).clkLevel := by decide

theorem test_witness_OnlyListedWritersWrite :
    exec .mount start = .next (ran .mount start) ∧ listedWriter .mount .accX = false ∧
    exec .fg start = .next (ran .fg start) ∧ listedWriter .fg .drvB = false := ⟨rfl, rfl, rfl, rfl⟩

theorem test_witness_MarksAreSticky :
    let r := waiting [0x10000000] { start with faults := ⟨true⟩, refusals := ⟨true, true⟩ }
    let f := waiting [0x43000100] { start with accX := 2147483647 }
    let x := waiting [0] start
    (runs 1 r (walk 1 r) ∧ r.faults.accOverflow = true ∧ r.refusals.illegalEvent = true ∧
      r.refusals.illegalLineop = true) ∧
    (step f = .next (walk 1 f) ∧ (walk 1 f).faults ≠ f.faults) ∧
    (step x = .next (walk 1 x) ∧ (walk 1 x).refusals ≠ x.refusals) :=
  ⟨⟨runs_walk _ _, rfl, rfl, rfl⟩, ⟨rfl, by decide⟩, ⟨rfl, by decide⟩⟩

theorem test_witness_ConfigurationIsFixed :
    let s := waiting [0x10000000, 0x43000300] start
    runs 2 s (walk 2 s) := runs_walk _ _

theorem test_witness_OutputLogIsWrittenAndNeverRead :
    let s := waiting [0x20000000] start
    step s = .next (walk 1 s) := rfl

theorem test_witness_ConnectedIsNeverRead :
    let m := waiting [0x20000000] start
    let u := waiting [0x30000000] start
    let f := waiting [0x50000000] start
    (step m = .next (walk 1 m) ∧ nextInstr m = some .mount) ∧
    (step u = .next (walk 1 u) ∧ nextInstr u = some .unmount) ∧
    (step f = .next (walk 1 f) ∧ nextInstr f ≠ some .mount ∧ nextInstr f ≠ some .unmount ∧ nextInstr f ≠ some .reset) :=
  ⟨⟨rfl, rfl⟩, ⟨rfl, rfl⟩, rfl, by decide, by decide, by decide⟩

theorem test_witness_EveryStepKeepsTheInvariants :
    let s := waiting [0x60000001] (sending 6)
    Invariants s ∧ step s = .next (walk 1 s) :=
  ⟨⟨by decide, by decide, by decide, by decide⟩, rfl⟩

theorem test_witness_EveryEventKeepsTheLineSet :
    let s := waiting [0x60000001] (sending 6)
    LineSet s ∧ eventsOnly s ∧ step s = .next (walk 1 s) :=
  ⟨⟨.inr (by unfold dataIdle; decide), by decide⟩, by decide, rfl⟩

theorem test_witness_ButtonsDoNotReachTheRest :
    let s := waiting [0x43030100, 0x60000001] (sending 6)
    eventsOnly s ∧ runs 2 s (walk 2 s) := ⟨by decide, runs_walk _ _⟩

end Sys2Proof.Tests
end

/-! PROOFS. What every step leaves as it was: the frame of each instruction over the fields of R37, of a refused word,
and of a whole step; and what the decoder promises of an instruction that runs. -/

namespace Sys2Proof.Proofs

open Sys2Proof.Machine Sys2Proof.Safety

/-! ### The step as an equation -/

theorem step_of_no_word {s : State} (hs : s.inbox = []) : step s = .next s := by
  simp [step, takeInput, hs]

theorem step_of_instr {s : State} {c : CodeWord} {rest : List CodeWord} {i : Instr} (hs : s.inbox = c :: rest)
    (hd : decode s.cfg.numBtn c = .instr i) : step s = .next (effect i { s with inbox := rest }) := by
  simp [step, takeInput, hs, hd, exec_eq_effect]

theorem step_of_illegal {s : State} {c : CodeWord} {rest : List CodeWord} {e : DecodeError} (hs : s.inbox = c :: rest)
    (hd : decode s.cfg.numBtn c = .illegal e) : step s = .next (refuseWord c { s with inbox := rest }) := by
  simp [step, takeInput, hs, hd]

/-! ### The operations whose equation is a record -/

theorem resetStep_eq (s : State) : resetStep s = { s with
    accX := 0, accY := 0, dirty := false, frame := #v[0, 0, 0, 0, 0, 0, 0], cursor := 0, active := false,
    connected := false, fgPhase := .idle, pendX := 0, pendY := 0, drvD := dataReleased,
    drvB := buttonsReleased s.cfg.numBtn s.drvB } := rfl

theorem zeroFrame_get : ∀ i : Fin 7, (#v[0, 0, 0, 0, 0, 0, 0] : Vector Nibble 7)[i] = 0 := by decide

theorem mountStep_eq (s : State) : mountStep s = { s with connected := true, out := s.out ++ [.rptReq] } := rfl

theorem unmountStep_eq (s : State) : unmountStep s = { s with
    accX := 0, accY := 0, dirty := false, cursor := 0, active := false, connected := false } := rfl

/-- What a micro-op on one line can do: write the line, when the block has it, or put the mark (R79, R160, R161). -/
theorem onLine_setLine_cases (line : Line) (v : Driver) (s : State) :
    (line.present s.cfg.numBtn = true ∧ onLine line (setLine line v) s = setLine line v s) ∨
    (line.present s.cfg.numBtn = false ∧ onLine line (setLine line v) s = refuseLineOp s) := by
  cases h : line.present s.cfg.numBtn
  · exact .inr ⟨rfl, by simp [onLine, h]⟩
  · exact .inl ⟨rfl, by simp [onLine, h]⟩

/-! ### Which fields an instruction leaves (R37) -/

/-- Taking the word of a step writes no field of R37. -/
theorem same_of_takeWord {s t : State} {rest : List CodeWord} {f : Field}
    (h : f.same { s with inbox := rest } t) : f.same s t := by
  cases f <;> exact h

/-- A micro-op on one line leaves every field but the lines and the refusals. -/
theorem onLine_setLine_same (line : Line) (v : Driver) (s : State) (f : Field)
    (hf : f ∉ [Field.drvD, .drvB, .refusals]) : f.same s (onLine line (setLine line v) s) := by
  rcases onLine_setLine_cases line v s with ⟨-, h⟩ | ⟨-, h⟩ <;> rw [h]
  · cases line <;> cases f <;> simp_all [Field.same, setLine]
  · cases f <;> simp_all [Field.same]

theorem reportStep_same (len : BitVec 4) (b0 b1 b2 : Byte) (s : State) (f : Field)
    (hf : listedWriter (.report len b0 b1 b2) f = false) : f.same s (reportStep len b0 b1 b2 s) := by
  rcases reportStep_cases len b0 b1 b2 s with ⟨-, h⟩ | ⟨-, -, -, h⟩ | ⟨-, -, h⟩ <;> rw [h] <;>
    cases f <;> simp_all [listedWriter, Field.same]

theorem fgStep_same (s : State) (f : Field) (hf : listedWriter .fg f = false) : f.same s (fgStep s) := by
  rcases fgStep_cases s with ⟨-, -, h⟩ | ⟨-, -, h⟩ | ⟨-, -, h⟩ | ⟨-, -, h⟩ <;> rw [h] <;>
    cases f <;> simp_all [listedWriter, Field.same]

theorem edgeDetect_same (lvl : Bool) (s : State) (f : Field) (hf : listedWriter (.clk lvl) f = false) :
    f.same s (edgeDetect lvl s) := by
  rcases edgeDetect_cases lvl s with ⟨-, h⟩ | ⟨-, -, h⟩ | ⟨-, -, h⟩ <;> rw [h] <;>
    cases f <;> simp_all [listedWriter, Field.same]

/-- The frame of an instruction: a field it is no listed writer of is unchanged (R37). -/
theorem effect_same {i : Instr} {f : Field} (s : State) (hf : listedWriter i f = false) : f.same s (effect i s) := by
  cases i with
  | reset => cases f <;> simp_all [listedWriter, Field.same, effect, resetStep_eq]
  | mount => cases f <;> simp_all [listedWriter, Field.same, effect, mountStep_eq]
  | unmount => cases f <;> simp_all [listedWriter, Field.same, effect, unmountStep_eq]
  | report len b0 b1 b2 => exact reportStep_same len b0 b1 b2 s f hf
  | fg => exact fgStep_same s f hf
  | clk lvl => exact edgeDetect_same lvl s f hf
  | drvlo line => exact onLine_setLine_same line .low s f (of_decide_eq_false hf)
  | rel line => exact onLine_setLine_same line .rel s f (of_decide_eq_false hf)
  | setnib n => cases f <;> simp_all [listedWriter, Field.same, effect]
  | relall => cases f <;> simp_all [listedWriter, Field.same, effect]

theorem refuseWord_same (c : CodeWord) (s : State) (f : Field) (hf : f ≠ .refusals) : f.same s (refuseWord c s) := by
  cases c <;> cases f <;> simp_all [refuseWord, Field.same]

/-- The frame of a step: what its instruction is no listed writer of is unchanged, and a step with no instruction writes
no field but the refusals. -/
theorem step_same {s t : State} {f : Field} (h : step s = .next t)
    (hi : ∀ i, nextInstr s = some i → listedWriter i f = false) (hn : nextInstr s = none → f ≠ .refusals) :
    f.same s t := by
  rcases step_by_nextInstr h with ⟨i, rest, c, -, -, hi', rfl⟩ | ⟨hn', ⟨-, rfl⟩ | ⟨c, rest, -, rfl⟩⟩
  · exact same_of_takeWord (effect_same _ (hi i hi'))
  · cases f <;> rfl
  · exact same_of_takeWord (refuseWord_same _ _ _ (hn hn'))

/-! ### What the decoder promises of an instruction that runs -/

/-- DRVLO and REL decode only with a line the block has (R79). -/
theorem decodeLine_wf {numBtn : Fin 3} {b : OpByte} {op : Line → Instr} {i : Instr}
    (h : decodeLine numBtn b op = .instr i) : ∃ line, line.present numBtn = true ∧ i = op line := by
  unfold decodeLine at h
  split at h
  · split at h
    · cases h
    · split at h
      next line _ hp => exact ⟨line, hp, (Decoded.instr.inj h).symm⟩
      · cases h
  · cases h

/-- A word that decodes names a line of the block, if it names one (R74, R79). -/
theorem decode_wf {numBtn : Fin 3} {c : CodeWord} {i : Instr} (h : decode numBtn c = .instr i) :
    i.wf numBtn = true := by
  cases c with
  | event w =>
    rcases decodeEvent_cases h with ⟨-, rfl⟩ | ⟨-, rfl⟩ | ⟨-, rfl⟩ | ⟨-, rfl⟩ | ⟨-, rfl⟩ | ⟨-, rfl⟩ <;> rfl
  | lineOp b =>
    simp only [decode, decodeLineOp] at h
    split at h
    · obtain ⟨line, hp, rfl⟩ := decodeLine_wf h; exact hp
    · obtain ⟨line, hp, rfl⟩ := decodeLine_wf h; exact hp
    · obtain ⟨-, rfl⟩ := decode_whenZero h; rfl
    · obtain ⟨-, rfl⟩ := decode_whenZero h; rfl

/-- An event word decodes to an instruction that an agent issues (R51, R72). -/
theorem decodeEvent_has_agent {w : EventWord} {i : Instr} (h : decodeEvent w = .instr i) :
    (agentOf i).isSome = true := by
  rcases decodeEvent_cases h with ⟨-, rfl⟩ | ⟨-, rfl⟩ | ⟨-, rfl⟩ | ⟨-, rfl⟩ | ⟨-, rfl⟩ | ⟨-, rfl⟩ <;> rfl

/-! ### The settled statements -/

/-- Settles O52: each instruction's frame, by its cases. -/
theorem onlyListedWritersWrite : Obligations.OnlyListedWritersWrite := by
  intro i s t f h hf
  rw [exec_eq_effect] at h
  cases h
  exact effect_same s hf

/-- Settles O54: no instruction is a listed writer of the configuration, so every step keeps it, and so does every run. -/
theorem configurationIsFixed : Obligations.ConfigurationIsFixed := by
  refine runs_induction (P := fun _ s t => t.cfg = s.cfg) (fun _ => rfl) fun _ s u _ hu _ ih => ?_
  have hstep : Field.cfg.same s u := step_same hu (fun i _ => by cases i <;> rfl) (fun _ => by decide)
  exact ih.trans hstep

/-- Settles O14: RESET as one record update, read field by field. -/
theorem resetClearsTheBlock : Obligations.ResetClearsTheBlock := by
  refine ⟨by decide, fun s => ⟨resetStep s, rfl, ?_⟩⟩
  rw [resetStep_eq]
  exact ⟨rfl, rfl, rfl, zeroFrame_get, rfl, rfl, rfl, rfl, rfl, rfl, dataReleased_get, buttonsReleased_get _ _,
    rfl, rfl, rfl, rfl, rfl, rfl⟩

end Sys2Proof.Proofs

/-! PROOFS. The sticky marks (R34): what each instruction adds to them, that no step clears one, and I-SUM (R39), which
rests on that: a run without a fault at its end has none anywhere. -/

namespace Sys2Proof.Proofs

open Sys2Proof.Machine Sys2Proof.Safety

/-! ### The marks only grow -/

/-- Every mark of the first state is a mark of the second. -/
structure MarksKept (s t : State) : Prop where
  accOverflow : s.faults.accOverflow = true → t.faults.accOverflow = true
  illegalEvent : s.refusals.illegalEvent = true → t.refusals.illegalEvent = true
  illegalLineop : s.refusals.illegalLineop = true → t.refusals.illegalLineop = true

theorem MarksKept.of_eq {s t : State} (hf : t.faults = s.faults) (hr : t.refusals = s.refusals) : MarksKept s t := by
  constructor <;> simp [hf, hr]

theorem MarksKept.trans {s t u : State} (h : MarksKept s t) (h' : MarksKept t u) : MarksKept s u :=
  ⟨h'.accOverflow ∘ h.accOverflow, h'.illegalEvent ∘ h.illegalEvent, h'.illegalLineop ∘ h.illegalLineop⟩

theorem takeWord_marksKept (s : State) (rest : List CodeWord) : MarksKept s { s with inbox := rest } := .of_eq rfl rfl

theorem refuseWord_marksKept (c : CodeWord) (s : State) : MarksKept s (refuseWord c s) := by
  cases c <;> constructor <;> simp [refuseWord]

/-- REPORT can only add the fault (R103). -/
theorem reportStep_marksKept (len : BitVec 4) (b0 b1 b2 : Byte) (s : State) :
    MarksKept s (reportStep len b0 b1 b2 s) := by
  rcases reportStep_cases len b0 b1 b2 s with ⟨-, h⟩ | ⟨-, -, -, h⟩ | ⟨-, -, h⟩ <;> rw [h] <;>
    constructor <;> simp

/-- A micro-op on a line the block has puts no mark (R79). -/
theorem onLine_setLine_refusals {line : Line} {s : State} (v : Driver) (hp : line.present s.cfg.numBtn = true) :
    (onLine line (setLine line v) s).refusals = s.refusals := by
  simp only [onLine, hp]
  cases line <;> rfl

/-- An instruction of the block refuses nothing: only a line the block does not have is refused (R79). -/
theorem effect_refusals_of_wf {i : Instr} {s : State} (hw : i.wf s.cfg.numBtn = true) :
    (effect i s).refusals = s.refusals := by
  cases i with
  | drvlo line => exact onLine_setLine_refusals .low hw
  | rel line => exact onLine_setLine_refusals .rel hw
  | _ => exact effect_same (f := .refusals) s rfl

theorem effect_faults_of_not_report {i : Instr} (s : State) (hi : ∀ len b0 b1 b2, i ≠ .report len b0 b1 b2) :
    (effect i s).faults = s.faults := by
  cases i with
  | report len b0 b1 b2 => exact absurd rfl (hi len b0 b1 b2)
  | _ => exact effect_same (f := .faults) s rfl

theorem effect_marksKept {i : Instr} {s : State} (hw : i.wf s.cfg.numBtn = true) : MarksKept s (effect i s) := by
  cases i with
  | report len b0 b1 b2 => exact reportStep_marksKept len b0 b1 b2 s
  | _ => exact .of_eq (effect_faults_of_not_report s (by simp)) (effect_refusals_of_wf hw)

theorem step_marksKept {s t : State} (h : step s = .next t) : MarksKept s t := by
  rcases step_by_nextInstr h with ⟨i, rest, c, -, hd, -, rfl⟩ | ⟨-, ⟨-, rfl⟩ | ⟨c, rest, -, rfl⟩⟩
  · exact (takeWord_marksKept s rest).trans (effect_marksKept (decode_wf hd))
  · exact .of_eq rfl rfl
  · exact (takeWord_marksKept s rest).trans (refuseWord_marksKept c _)

theorem runs_marksKept {k : Nat} {s t : State} (h : runs k s t) : MarksKept s t :=
  runs_induction (P := fun _ => MarksKept) (fun _ => .of_eq rfl rfl)
    (fun _ _ _ _ hu _ ih => (step_marksKept hu).trans ih) k s t h

/-- A run that ends without a fault began without one, since no step clears the mark (R34). -/
theorem runs_faultFree {k : Nat} {s t : State} (h : runs k s t) (ht : faultFree t) : faultFree s := by
  have hkept := (runs_marksKept h).accOverflow
  simp_all [faultFree]

theorem step_faults {s t : State} (h : step s = .next t) (hne : t.faults ≠ s.faults) :
    ∃ len b0 b1 b2, nextInstr s = some (.report len b0 b1 b2) := by
  by_contra hno
  refine hne (step_same (f := .faults) h (fun i hi => ?_) (by simp))
  cases i with
  | report len b0 b1 b2 => exact absurd ⟨len, b0, b1, b2, hi⟩ hno
  | _ => rfl

theorem step_refusals {s t : State} (h : step s = .next t) (hne : t.refusals ≠ s.refusals) : nextInstr s = none := by
  rcases step_by_nextInstr h with ⟨i, rest, c, -, hd, -, rfl⟩ | ⟨hn, -⟩
  · exact absurd (effect_refusals_of_wf (s := { s with inbox := rest }) (decode_wf hd)) hne
  · exact hn

/-! ### The accumulator's sums (R39 I-SUM) -/

/-- The accumulator pair. -/
def accPair (s : State) : Int × Int := (s.accX.toInt, s.accY.toInt)

theorem accPair_of_same {s t : State} (hx : Field.accX.same s t) (hy : Field.accY.same s t) : accPair t = accPair s := by
  simp only [Field.same] at hx hy
  simp [accPair, hx, hy]

/-- A REPORT that leaves no fault adds its scaled sample when it is accepted, and nothing otherwise (R102, R182). -/
theorem reportStep_accPair {len : BitVec 4} {b0 b1 b2 : Byte} {s : State}
    (h : faultFree (reportStep len b0 b1 b2 s)) :
    accPair (reportStep len b0 b1 b2 s) =
      if 3 ≤ len.toNat then
        (s.accX.toInt + scaleSample s.cfg (sext8 b1), s.accY.toInt + scaleSample s.cfg (sext8 b2))
      else accPair s := by
  rcases reportStep_cases len b0 b1 b2 s with ⟨hl, he⟩ | ⟨hl, hx, hy, he⟩ | ⟨hl, -, he⟩
  · simp [he, accPair, hl]
  · simp [he, accPair, hl, accWord_toInt hx, accWord_toInt hy]
  · simp [he, faultFree] at h

/-- FG starts the sums anew when it drains and keeps them otherwise (R104, R188). -/
theorem fgStep_accPair (s : State) :
    accPair (fgStep s) = if s.fgPhase = .idle ∧ s.dirty = true then (0, 0) else accPair s := by
  rcases fgStep_cases s with ⟨hp, hd, h⟩ | ⟨hp, hd, h⟩ | ⟨hp, -, h⟩ | ⟨hp, -, h⟩ <;> rw [h] <;>
    simp [accPair, *]

/-- The step lemma of I-SUM: a step that leaves no fault does to the pair what R39 says. -/
theorem step_accPair {s t : State} (h : step s = .next t) (hf : faultFree t) :
    accPair t = sumsAfter s (accPair s) := by
  rcases step_by_nextInstr h with ⟨i, rest, c, -, -, hn, rfl⟩ | ⟨hn, ⟨-, rfl⟩ | ⟨c, rest, -, rfl⟩⟩
  · cases i with
    | reset => simp only [sumsAfter, hn]; rfl
    | unmount => simp only [sumsAfter, hn]; rfl
    | report len b0 b1 b2 => simp only [sumsAfter, hn]; exact reportStep_accPair hf
    | fg => simp only [sumsAfter, hn]; exact fgStep_accPair { s with inbox := rest }
    | _ =>
      simp only [sumsAfter, hn]
      exact accPair_of_same (s := { s with inbox := rest }) (effect_same _ rfl) (effect_same _ rfl)
  · simp [sumsAfter, hn]
  · simp only [sumsAfter, hn]
    exact accPair_of_same (s := { s with inbox := rest }) (refuseWord_same _ _ _ (by decide))
      (refuseWord_same _ _ _ (by decide))

theorem sumsOver_succ {k : Nat} {s t : State} (h : step s = .next t) (sums : Int × Int) :
    sumsOver (k + 1) s sums = sumsOver k t (sumsAfter s sums) := by
  simp [sumsOver, h]

/-! ### The settled statements -/

/-- Settles O53: every step keeps the marks, and the frames say who adds one. -/
theorem marksAreSticky : Obligations.MarksAreSticky :=
  ⟨fun _ => ⟨rfl, rfl⟩,
    fun _ _ _ h => have hk := runs_marksKept h; ⟨hk.accOverflow, hk.illegalEvent, hk.illegalLineop⟩,
    fun _ _ => step_faults, fun _ _ => step_refusals⟩

/-- Settles O49, by induction on the run: its first step ends without a fault because the whole run does. -/
theorem accumulatorHoldsTheExactSum : Obligations.AccumulatorHoldsTheExactSum := by
  refine runs_induction (P := fun k s t => faultFree t → accPair t = sumsOver k s (accPair s))
    (fun _ _ => rfl) fun k s u t hu hr ih ht => ?_
  calc accPair t = sumsOver k u (accPair u) := ih ht
    _ = sumsOver k u (sumsAfter s (accPair s)) := by rw [step_accPair hu (runs_faultFree hr ht)]
    _ = sumsOver (k + 1) s (accPair s) := (sumsOver_succ hu _).symm

end Sys2Proof.Proofs

/-! PROOFS. The fields no step reads (R28, R35): with another log and another `connected` before it, an instruction does
the same to every other field, and to these two what it would have done anyway. -/

namespace Sys2Proof.Proofs

open Sys2Proof.Machine Sys2Proof.Safety

/-- The state with another log and another `connected`. -/
def withUnread (o : List OutEvent) (b : Bool) (s : State) : State := { s with out := o, connected := b }

@[simp] theorem withUnread_fgPhase (o : List OutEvent) (b : Bool) (s : State) :
    (withUnread o b s).fgPhase = s.fgPhase := rfl

/-- What the instruction of a step, if there is one, appends to the log (R183, R186). -/
def requests : Option Instr → List OutEvent
  | some .mount => [.rptReq]
  | some (.report _ _ _ _) => [.rptReq]
  | _ => []

/-- `connected` after a step with this instruction, if there is one (R186, R187, R230). -/
def connectedAfter (b : Bool) : Option Instr → Bool
  | some .mount => true
  | some .unmount => false
  | some .reset => false
  | _ => b

/-- The operation neither reads nor writes the unread fields: it commutes with a change of them. -/
def Blind (op : State → State) : Prop := ∀ o b s, op (withUnread o b s) = withUnread o b (op s)

theorem Blind.comp {f g : State → State} (hf : Blind f) (hg : Blind g) : Blind fun s => f (g s) :=
  fun o b s => (congrArg f (hg o b s)).trans (hf o b (g s))

/-- A choice of two blind operations is blind when its guard does not see the unread fields. -/
theorem Blind.ite {c : State → Prop} [DecidablePred c] {f g : State → State}
    (hc : ∀ o b s, c (withUnread o b s) ↔ c s) (hf : Blind f) (hg : Blind g) :
    Blind fun s => if c s then f s else g s := by
  intro o b s
  simp only [hc o b s]
  split
  · exact hf o b s
  · exact hg o b s

theorem id_blind : Blind fun s => s := fun _ _ _ => rfl

theorem accumulate_blind (dx dy : Int) : Blind (accumulate dx dy) :=
  Blind.ite
    (c := fun s => (inW (s.accX.toInt + scaleSample s.cfg dx) && inW (s.accY.toInt + scaleSample s.cfg dy)) = true)
    (fun _ _ _ => Iff.rfl) (fun _ _ _ => rfl) (fun _ _ _ => rfl)

theorem buttonUpdate_blind (b0 : Byte) : Blind (buttonUpdate b0) := by
  intro o b s
  rw [buttonUpdate_eq, buttonUpdate_eq]
  rfl

theorem reportBody_blind (len : BitVec 4) (b0 b1 b2 : Byte) :
    Blind fun s => if accepted len then buttonUpdate b0 (accumulate (sext8 b1) (sext8 b2) s) else s :=
  Blind.ite (c := fun _ => accepted len = true) (fun _ _ _ => Iff.rfl)
    ((buttonUpdate_blind b0).comp (accumulate_blind (sext8 b1) (sext8 b2))) id_blind

theorem reportStep_withUnread (len : BitVec 4) (b0 b1 b2 : Byte) (o : List OutEvent) (b : Bool) (s : State) :
    reportStep len b0 b1 b2 (withUnread o b s) = withUnread (o ++ [.rptReq]) b (reportStep len b0 b1 b2 s) :=
  congrArg requestReport (reportBody_blind len b0 b1 b2 o b s)

theorem fgPhase1_blind : Blind fgPhase1 :=
  Blind.ite (c := fun s => s.dirty = true) (fun _ _ _ => Iff.rfl) (fun _ _ _ => rfl) id_blind

theorem fgPhase2_blind : Blind fgPhase2 :=
  Blind.ite (c := fun s => publishesPair s = true) (fun _ _ _ => Iff.rfl) (fun _ _ _ => rfl) (fun _ _ _ => rfl)

theorem fgStep_blind : Blind fgStep := by
  intro o b s
  cases hp : s.fgPhase <;> simp only [fgStep, withUnread_fgPhase, hp]
  · exact fgPhase1_blind o b s
  · exact fgPhase2_blind o b s

theorem emit_blind : Blind emit :=
  Blind.ite (c := fun s => s.active = true) (fun _ _ _ => Iff.rfl) (fun _ _ _ => rfl) (fun _ _ _ => rfl)

theorem edgeDetect_blind (lvl : Bool) : Blind (edgeDetect lvl) :=
  Blind.ite (c := fun s => lvl = s.clkLevel) (fun _ _ _ => Iff.rfl) id_blind
    (emit_blind.comp (g := fun s => { s with clkLevel := lvl }) fun _ _ _ => rfl)

theorem setLine_blind (line : Line) (v : Driver) : Blind (setLine line v) := by
  intro o b s
  cases line <;> rfl

theorem onLine_blind (line : Line) {op : State → State} (hop : Blind op) : Blind (onLine line op) :=
  Blind.ite (c := fun s => line.present s.cfg.numBtn = true) (fun _ _ _ => Iff.rfl) hop (fun _ _ _ => rfl)

theorem refuseWord_blind (c : CodeWord) : Blind (refuseWord c) := by
  intro o b s
  cases c <;> rfl

/-- An instruction never reads the log or `connected`, and writes them whatever they were. -/
theorem effect_withUnread (i : Instr) (o : List OutEvent) (b : Bool) (s : State) :
    effect i (withUnread o b s) = withUnread (o ++ requests (some i)) (connectedAfter b (some i)) (effect i s) := by
  have quiet {t t' : State} {b' : Bool} (h : t = withUnread o b' t') : t = withUnread (o ++ []) b' t' := by
    rwa [List.append_nil]
  cases i with
  | reset => exact quiet rfl
  | mount => rfl
  | unmount => exact quiet rfl
  | report len b0 b1 b2 => exact reportStep_withUnread len b0 b1 b2 o b s
  | fg => exact quiet (fgStep_blind o b s)
  | clk lvl => exact quiet (edgeDetect_blind lvl o b s)
  | drvlo line => exact quiet (onLine_blind line (setLine_blind line .low) o b s)
  | rel line => exact quiet (onLine_blind line (setLine_blind line .rel) o b s)
  | setnib n => exact quiet rfl
  | relall => exact quiet rfl

/-- A step never reads the log or `connected`. -/
theorem step_withUnread {s t : State} (h : step s = .next t) (o : List OutEvent) (b : Bool) :
    step (withUnread o b s) =
      .next (withUnread (o ++ requests (nextInstr s)) (connectedAfter b (nextInstr s)) t) := by
  rcases step_cases s with ⟨hs, h'⟩ | ⟨c, rest, i, hs, hd, h'⟩ | ⟨c, rest, e, hs, hd, h'⟩ <;> rw [h'] at h <;> cases h
  · have hn : nextInstr s = none := by simp [nextInstr, hs]
    rw [step_of_no_word (s := withUnread o b s) hs, hn]
    simp [requests, connectedAfter]
  · have hn : nextInstr s = some i := by simp [nextInstr, hs, hd]
    rw [step_of_instr (s := withUnread o b s) hs hd, hn, ← effect_withUnread]
    rfl
  · have hn : nextInstr s = none := by simp [nextInstr, hs, hd]
    rw [step_of_illegal (s := withUnread o b s) hs hd, hn]
    simp only [requests, connectedAfter, List.append_nil]
    exact congrArg _ (refuseWord_blind c o b { s with inbox := rest })

/-- What a step does to the two fields themselves: nothing is changed by putting back what was there. -/
theorem step_unread_fields {s t : State} (h : step s = .next t) :
    t.out = s.out ++ requests (nextInstr s) ∧ t.connected = connectedAfter s.connected (nextInstr s) := by
  have hself := step_withUnread h s.out s.connected
  have ht : t = withUnread (s.out ++ requests (nextInstr s)) (connectedAfter s.connected (nextInstr s)) t :=
    Host.Outcome.next.inj (h.symm.trans hself)
  exact ⟨congrArg State.out ht, congrArg State.connected ht⟩

/-- One request for MOUNT and REPORT, none for anything else (R35). -/
theorem requests_cases (i : Option Instr) :
    (requests i = [.rptReq] ∧ (i = some .mount ∨ ∃ len b0 b1 b2, i = some (.report len b0 b1 b2))) ∨
    (requests i = [] ∧ i ≠ some .mount ∧ ∀ len b0 b1 b2, i ≠ some (.report len b0 b1 b2)) := by
  rcases i with _ | i
  · exact .inr ⟨rfl, by simp⟩
  · cases i with
    | mount => exact .inl ⟨rfl, .inl rfl⟩
    | report len b0 b1 b2 => exact .inl ⟨rfl, .inr ⟨len, b0, b1, b2, rfl⟩⟩
    | _ => exact .inr ⟨rfl, by simp⟩

theorem connectedAfter_of_no_writer {i : Option Instr} (b : Bool) (hm : i ≠ some .mount) (hu : i ≠ some .unmount)
    (hr : i ≠ some .reset) : connectedAfter b i = b := by
  unfold connectedAfter
  split <;> simp_all

/-! ### The settled statements -/

/-- Settles O55: the step with another log before it, `connected` being as it is. -/
theorem outputLogIsWrittenAndNeverRead : Obligations.OutputLogIsWrittenAndNeverRead := by
  intro s t o h
  obtain ⟨hout, hconn⟩ := step_unread_fields h
  refine ⟨requests (nextInstr s), hout, ?_, requests_cases _⟩
  have hstep := step_withUnread h o s.connected
  rwa [← hconn] at hstep

/-- Settles O56: the step with another `connected` before it, the log being as it is. -/
theorem connectedIsNeverRead : Obligations.ConnectedIsNeverRead := by
  intro s t b h
  obtain ⟨hout, hconn⟩ := step_unread_fields h
  refine ⟨fun hm => ?_, fun hw => ?_, fun hm hu hr => ?_, ?_⟩
  · rw [hconn, hm]; rfl
  · rcases hw with hw | hw <;> rw [hconn, hw] <;> rfl
  · rw [hconn, connectedAfter_of_no_writer _ hm hu hr]
  · exact ⟨_, step_withUnread h s.out b, by rw [← hout]; rfl⟩

end Sys2Proof.Proofs

/-! PROOFS. The invariants of R39 and the line set of R40: they hold at power-on, and every step keeps them. -/

namespace Sys2Proof.Proofs

open Sys2Proof.Machine Sys2Proof.Safety

/-! ### I-DIRTY, I-PEND, I-FRAME and the absent button lines -/

theorem clamp_range (v : Int) : -127 ≤ clamp v ∧ clamp v ≤ 127 := by
  rw [clamp_eq_max_min]
  omega

theorem buttonsAtPowerOn_get : ∀ k : Fin 2, (#v[.rel, .rel] : Vector Driver 2)[k] = .rel := by decide

theorem invariants_powerOn (c : Config) : Invariants (State.powerOn c) where
  dirty _ := ⟨rfl, rfl⟩
  pend h := nomatch h
  frame h := nomatch h
  absent k _ := buttonsAtPowerOn_get k

theorem takeWord_invariants {s : State} (h : Invariants s) (rest : List CodeWord) :
    Invariants { s with inbox := rest } :=
  ⟨h.dirty, h.pend, h.frame, h.absent⟩

theorem refuseWord_invariants {s : State} (h : Invariants s) (c : CodeWord) :
    Invariants (refuseWord c s) := by
  cases c <;> exact ⟨h.dirty, h.pend, h.frame, h.absent⟩

/-- Releasing every line writes no absent entry (R165). -/
theorem releaseAll_invariants {s : State} (h : Invariants s) : Invariants (releaseAll s) where
  dirty := h.dirty
  pend := h.pend
  frame := h.frame
  absent k (hk : s.cfg.numBtn.val ≤ k.val) := by
    rw [releaseAll_drvB, buttonsReleased_get, if_neg (Nat.not_lt.2 hk)]
    exact h.absent k hk

/-- A button update writes no absent entry (R185). -/
theorem buttonsAfter_absent {s : State} (h : Invariants s) (b0 : Byte) (k : Fin 2) (hk : s.cfg.numBtn.val ≤ k.val) :
    (buttonsAfter s.cfg b0 s.drvB)[k] = .rel := by
  rw [buttonsAfter_get, if_neg fun ⟨_, hlt⟩ => absurd hk (Nat.not_le.2 hlt)]
  exact h.absent k hk

theorem resetStep_invariants {s : State} (h : Invariants s) : Invariants (resetStep s) where
  dirty _ := ⟨rfl, rfl⟩
  pend hp := nomatch hp
  frame ha := nomatch ha
  absent := (releaseAll_invariants h).absent

theorem unmountStep_invariants {s : State} (h : Invariants s) : Invariants (unmountStep s) where
  dirty _ := ⟨rfl, rfl⟩
  pend := h.pend
  frame ha := nomatch ha
  absent := h.absent

theorem reportStep_invariants {s : State} (h : Invariants s) (len : BitVec 4) (b0 b1 b2 : Byte) :
    Invariants (reportStep len b0 b1 b2 s) := by
  rcases reportStep_cases len b0 b1 b2 s with ⟨-, he⟩ | ⟨-, -, -, he⟩ | ⟨-, -, he⟩ <;> rw [he]
  · exact ⟨h.dirty, h.pend, h.frame, h.absent⟩
  · exact ⟨(nomatch ·), h.pend, h.frame, buttonsAfter_absent h b0⟩
  · exact ⟨h.dirty, h.pend, h.frame, buttonsAfter_absent h b0⟩

theorem fgStep_invariants {s : State} (h : Invariants s) : Invariants (fgStep s) := by
  rcases fgStep_cases s with ⟨-, -, he⟩ | ⟨-, -, he⟩ | ⟨-, -, he⟩ | ⟨-, -, he⟩ <;> rw [he]
  · exact h
  · have hx := clamp_range s.accX.toInt
    have hy := clamp_range s.accY.toInt
    exact ⟨fun _ => ⟨rfl, rfl⟩, fun _ => ⟨hx.1, hx.2, hy.1, hy.2⟩, h.frame, h.absent⟩
  · exact ⟨h.dirty, (nomatch ·), h.frame, h.absent⟩
  · exact ⟨h.dirty, (nomatch ·), fun _ => ⟨rfl, rfl, rfl⟩, h.absent⟩

theorem edgeDetect_invariants {s : State} (h : Invariants s) (lvl : Bool) : Invariants (edgeDetect lvl s) := by
  have hlvl : Invariants { s with clkLevel := lvl } := ⟨h.dirty, h.pend, h.frame, h.absent⟩
  rcases edgeDetect_cases lvl s with ⟨-, he⟩ | ⟨-, -, he⟩ | ⟨-, -, he⟩ <;> rw [he]
  · exact h
  · exact ⟨h.dirty, h.pend, h.frame, h.absent⟩
  · exact releaseAll_invariants hlvl

/-- A micro-op on a line the block has writes no absent entry, and one on another line writes none at all (R79). -/
theorem onLine_invariants {s : State} (h : Invariants s) (line : Line) (v : Driver) :
    Invariants (onLine line (setLine line v) s) := by
  rcases onLine_setLine_cases line v s with ⟨hp, he⟩ | ⟨-, he⟩ <;> rw [he]
  · cases line with
    | d i => exact ⟨h.dirty, h.pend, h.frame, h.absent⟩
    | b j =>
      refine ⟨h.dirty, h.pend, h.frame, fun k (hk : s.cfg.numBtn.val ≤ k.val) => ?_⟩
      have hj : j.val < s.cfg.numBtn.val := of_decide_eq_true hp
      have hne : j.val ≠ k.val := by omega
      simpa [setLine, Vector.getElem_set_ne _ _ hne] using h.absent k hk
  · exact ⟨h.dirty, h.pend, h.frame, h.absent⟩

theorem effect_invariants {s : State} (h : Invariants s) (i : Instr) : Invariants (effect i s) := by
  cases i with
  | reset => exact resetStep_invariants h
  | mount => exact ⟨h.dirty, h.pend, h.frame, h.absent⟩
  | unmount => exact unmountStep_invariants h
  | report len b0 b1 b2 => exact reportStep_invariants h len b0 b1 b2
  | fg => exact fgStep_invariants h
  | clk lvl => exact edgeDetect_invariants h lvl
  | drvlo line => exact onLine_invariants h line .low
  | rel line => exact onLine_invariants h line .rel
  | setnib n => exact ⟨h.dirty, h.pend, h.frame, h.absent⟩
  | relall => exact releaseAll_invariants h

/-! ### The line set (R40) -/

theorem dataReleased_idle : dataIdle dataReleased := dataReleased_get

theorem nibbleDrivers_shows (n : Nibble) : showsNibble (nibbleDrivers n) n := nibbleDrivers_get n

theorem lineSet_powerOn (c : Config) : LineSet (State.powerOn c) where
  data := .inr dataReleased_idle
  buttons _ := buttonsAtPowerOn_get

/-- Releasing the button lines leaves them released, whichever of them the block has (R165). -/
theorem buttonsReleased_of_released {b : Vector Driver 2} (n : Fin 3) (h : ∀ k : Fin 2, b[k] = .rel) (k : Fin 2) :
    (buttonsReleased n b)[k] = .rel := by
  rw [buttonsReleased_get, h k, ite_self]

/-- Under BUTTON_MODE = RELEASED a report leaves the button lines as they were (R185). -/
theorem buttonsAfter_of_mode_released {c : Config} (hm : c.buttonMode = .released) (b0 : Byte) (b : Vector Driver 2)
    (k : Fin 2) : (buttonsAfter c b0 b)[k] = b[k] := by
  rw [buttonsAfter_get, if_neg (by simp [hm])]

/-- Releasing every line keeps the line set, whatever the frame is then (R165). -/
theorem lineSet_of_allReleased {s t : State} (h : LineSet s) (hd : t.drvD = dataReleased)
    (hb : t.drvB = buttonsReleased s.cfg.numBtn s.drvB) (hc : t.cfg = s.cfg) : LineSet t where
  data := .inr (hd ▸ dataReleased_idle)
  buttons hm k := by
    rw [hc] at hm
    simp only [hb]
    exact buttonsReleased_of_released _ (h.buttons hm) k

theorem reportStep_lineSet {s : State} (h : LineSet s) (len : BitVec 4) (b0 b1 b2 : Byte) :
    LineSet (reportStep len b0 b1 b2 s) := by
  have hbuttons (hm : s.cfg.buttonMode = .released) (k : Fin 2) : (buttonsAfter s.cfg b0 s.drvB)[k] = .rel :=
    (buttonsAfter_of_mode_released hm b0 s.drvB k).trans (h.buttons hm k)
  rcases reportStep_cases len b0 b1 b2 s with ⟨-, he⟩ | ⟨-, -, -, he⟩ | ⟨-, -, he⟩ <;> rw [he]
  · exact ⟨h.data, h.buttons⟩
  · exact ⟨h.data, hbuttons⟩
  · exact ⟨h.data, hbuttons⟩

/-- A publication stages element 0 of its own frame (R126); the other FG steps write no line. -/
theorem fgStep_lineSet {s : State} (h : LineSet s) : LineSet (fgStep s) := by
  rcases fgStep_cases s with ⟨-, -, he⟩ | ⟨-, -, he⟩ | ⟨-, -, he⟩ | ⟨-, -, he⟩ <;> rw [he]
  · exact h
  · exact ⟨h.data, h.buttons⟩
  · exact ⟨h.data, h.buttons⟩
  · exact ⟨.inl ⟨0, nibbleDrivers_shows _⟩, h.buttons⟩

/-- An active edge shows the element under the cursor, an idle one releases every line (R142, R143). -/
theorem edgeDetect_lineSet {s : State} (h : LineSet s) (lvl : Bool) : LineSet (edgeDetect lvl s) := by
  rcases edgeDetect_cases lvl s with ⟨-, he⟩ | ⟨-, -, he⟩ | ⟨-, -, he⟩ <;> rw [he]
  · exact h
  · exact ⟨.inl ⟨s.cursor, nibbleDrivers_shows _⟩, h.buttons⟩
  · exact lineSet_of_allReleased h rfl rfl rfl

/-- Every instruction an agent issues keeps the line set. -/
theorem effect_lineSet {s : State} (h : LineSet s) {i : Instr} (ha : (agentOf i).isSome = true) :
    LineSet (effect i s) := by
  cases i with
  | reset => exact lineSet_of_allReleased h rfl rfl rfl
  | mount => exact ⟨h.data, h.buttons⟩
  | unmount => exact ⟨h.data, h.buttons⟩
  | report len b0 b1 b2 => exact reportStep_lineSet h len b0 b1 b2
  | fg => exact fgStep_lineSet h
  | clk lvl => exact edgeDetect_lineSet h lvl
  | _ => cases ha

theorem takeWord_lineSet {s : State} (h : LineSet s) (rest : List CodeWord) : LineSet { s with inbox := rest } :=
  ⟨h.data, h.buttons⟩

theorem refuseWord_lineSet {s : State} (h : LineSet s) (c : CodeWord) : LineSet (refuseWord c s) := by
  cases c <;> exact ⟨h.data, h.buttons⟩

/-- The instruction of a step on an event word is one that an agent issues (R51, R74). -/
theorem decode_has_agent {numBtn : Fin 3} {c : CodeWord} {i : Instr} (hc : isEventWord c = true)
    (h : decode numBtn c = .instr i) : (agentOf i).isSome = true := by
  cases c with
  | event w => exact decodeEvent_has_agent h
  | lineOp b => cases hc

/-! ### The settled statements -/

/-- Settles O57: the reset state is a power-on state, and every power-on state meets both. -/
theorem powerOnMeetsTheInvariants : Obligations.PowerOnMeetsTheInvariants :=
  ⟨invariants_powerOn _, lineSet_powerOn _, fun c => ⟨invariants_powerOn c, lineSet_powerOn c⟩⟩

/-- Settles O58: taking a word keeps the invariants, and so does each instruction and each refusal. -/
theorem everyStepKeepsTheInvariants : Obligations.EveryStepKeepsTheInvariants := by
  intro s t hs h
  rcases step_by_nextInstr h with ⟨i, rest, -, -, -, -, rfl⟩ | ⟨-, ⟨-, rfl⟩ | ⟨c, rest, -, rfl⟩⟩
  · exact effect_invariants (takeWord_invariants hs rest) i
  · exact hs
  · exact refuseWord_invariants (takeWord_invariants hs rest) c

/-- Settles O59: an event word runs an instruction that an agent issues, and each of those keeps the line set. -/
theorem everyEventKeepsTheLineSet : Obligations.EveryEventKeepsTheLineSet := by
  intro s t hs hev h
  rcases step_by_nextInstr h with ⟨i, rest, c, hin, hd, -, rfl⟩ | ⟨-, ⟨-, rfl⟩ | ⟨c, rest, -, rfl⟩⟩
  · have hc : isEventWord c = true := hev c (by simp [hin])
    exact effect_lineSet (takeWord_lineSet hs rest) (decode_has_agent hc hd)
  · exact hs
  · exact refuseWord_lineSet (takeWord_lineSet hs rest) c

end Sys2Proof.Proofs

/-! PROOFS. The two FG phases, the edges and the reports in sequence: what one leaves for the next (R53, R55), and what a
repeated event does (R61). -/

namespace Sys2Proof.Proofs

open Sys2Proof.Machine Sys2Proof.Safety

/-! ### FG phase 2 of a pair that moves, and the edges -/

/-- Phase 2 publishes a pair other than (0, 0), whatever the zero policy is (R127, R189). -/
theorem exec_fg_of_motion {s : State} (hp : s.fgPhase = .pending) (hm : s.pendX ≠ 0 ∨ s.pendY ≠ 0) :
    exec .fg s = .next (publish (build s.cfg s.pendX s.pendY) { s with fgPhase := .idle }) := by
  have hfg : fgStep s = publish (build s.cfg s.pendX s.pendY) { s with fgPhase := .idle } := by
    simpa [hp, publishesPair_of_motion hm] using fgStep_cases s
  rw [exec_eq_effect, effect, hfg]

/-- After an instruction that does not write the pending pair, phase 2 publishes the frame of that pair (R55). -/
theorem exec_fg_after_of_motion {i : Instr} {s t : State} (h : exec i s = .next t) (hp : s.fgPhase = .pending)
    (hm : s.pendX ≠ 0 ∨ s.pendY ≠ 0)
    (hi : ∀ f ∈ [Field.fgPhase, .pendX, .pendY, .cfg], listedWriter i f = false) :
    exec .fg t = .next (publish (build s.cfg s.pendX s.pendY) { t with fgPhase := .idle }) := by
  have kept (f : Field) (hf : f ∈ [Field.fgPhase, .pendX, .pendY, .cfg]) : f.same s t :=
    onlyListedWritersWrite i s t f h (hi f hf)
  have hphase : t.fgPhase = s.fgPhase := kept .fgPhase (by decide)
  have hx : t.pendX = s.pendX := kept .pendX (by decide)
  have hy : t.pendY = s.pendY := kept .pendY (by decide)
  have hc : t.cfg = s.cfg := kept .cfg (by decide)
  rw [exec_fg_of_motion (hphase.trans hp) (by rwa [hx, hy]), hx, hy, hc]

/-- An edge of an active block shows the element under the cursor and moves the cursor on (R142). -/
theorem exec_clk_of_active {s : State} {lvl : Bool} (ha : s.active = true) (hl : lvl ≠ s.clkLevel) :
    exec (.clk lvl) s = .next (emitActive { s with clkLevel := lvl }) := by
  have hedge : edgeDetect lvl s = emitActive { s with clkLevel := lvl } := by
    simpa [hl, ha] using edgeDetect_cases lvl s
  rw [exec_eq_effect, effect, hedge]

/-- A CLK with the level last sampled is no edge (R140). -/
theorem exec_clk_of_sameLevel {s : State} {lvl : Bool} (hl : lvl = s.clkLevel) : exec (.clk lvl) s = .next s := by
  have hstill : edgeDetect lvl s = s := by simpa [hl] using edgeDetect_cases lvl s
  rw [exec_eq_effect, effect, hstill]

/-- The level of a CLK is the last one sampled after it (R32). -/
theorem edgeDetect_clkLevel (lvl : Bool) (s : State) : (edgeDetect lvl s).clkLevel = lvl := by
  rcases edgeDetect_cases lvl s with ⟨hl, h⟩ | ⟨-, -, h⟩ | ⟨-, -, h⟩ <;> rw [h]
  · exact hl.symm
  · rfl
  · rfl

/-! ### The settled statements -/

/-- Settles O10: the step as an equation, for a word that decodes and for none waiting. -/
theorem stepRunsTheDecodedInstruction : Obligations.StepRunsTheDecodedInstruction :=
  ⟨fun s _ rest i hs hd => (step_of_instr hs hd).trans (exec_eq_effect i { s with inbox := rest }).symm,
    fun _ => step_of_no_word⟩

/-- Settles O28: neither a report nor an UNMOUNT nor an edge writes the pending pair, and a publication writes neither
the accumulator nor its flag. -/
theorem stepsBetweenThePhases : Obligations.StepsBetweenThePhases := by
  intro s hp hm
  refine ⟨fun len b0 b1 b2 => ?_, fun lvl ha hl => ?_, ?_⟩
  · have hreport : exec (.report len b0 b1 b2) s = .next (reportStep len b0 b1 b2 s) := rfl
    have hfg := exec_fg_after_of_motion hreport hp hm (by simp [listedWriter])
    exact ⟨_, _, hreport, hfg, rfl, rfl, rfl, rfl, rfl⟩
  · exact ⟨_, exec_clk_of_active ha hl, nibbleDrivers_shows _, hp, rfl, rfl⟩
  · have hunmount : exec .unmount s = .next (unmountStep s) := rfl
    have hfg := exec_fg_after_of_motion hunmount hp hm (by decide)
    exact ⟨_, _, hunmount, rfl, hp, hfg, rfl, rfl⟩

/-- Settles O29: an edge writes neither the pending pair nor the frame, so the publication after it is the one of the
pair before it; a publication puts element 0, the ID nibble, under the cursor of the edge after it. -/
theorem edgeIsWhollyBeforeOrAfterPublication : Obligations.EdgeIsWhollyBeforeOrAfterPublication := by
  intro s lvl ha hp hm hl
  constructor
  · have hedge := exec_clk_of_active ha hl
    have hfg := exec_fg_after_of_motion hedge hp hm (by simp [listedWriter])
    exact ⟨_, _, hedge, hfg, nibbleDrivers_shows _, rfl, nibbleDrivers_shows _, rfl, rfl⟩
  · have hfg := exec_fg_of_motion hp hm
    have hedge := exec_clk_of_active (s := publish (build s.cfg s.pendX s.pendY) { s with fgPhase := .idle }) rfl hl
    exact ⟨_, _, hfg, hedge, rfl, rfl, nibbleDrivers_shows _, rfl, rfl⟩

/-- Settles O51: a drain, MOUNT and UNMOUNT by their equations, two edges by the rule of an active edge, and a repeated
CLK because its level is then the one last sampled. -/
theorem sideEffectsAndIdempotency : Obligations.SideEffectsAndIdempotency := by
  refine ⟨fun s => ⟨rfl, rfl⟩, fun s lvl ha hl => ?_, fun s lvl => ?_, fun s => ?_, fun s => ?_⟩
  · have hfirst := exec_clk_of_active ha hl
    have hsecond := exec_clk_of_active (s := emitActive { s with clkLevel := lvl }) (lvl := !lvl) ha (by simp)
    exact ⟨_, _, hfirst, hsecond, nibbleDrivers_shows _, nextCursor_val _, nibbleDrivers_shows _⟩
  · exact ⟨edgeDetect lvl s, rfl, exec_clk_of_sameLevel (edgeDetect_clkLevel lvl s).symm⟩
  · exact ⟨mountStep s, rfl, rfl⟩
  · exact ⟨unmountStep s, rfl, rfl⟩

end Sys2Proof.Proofs

/-! PROOFS. The two encodings (R70 to R80): a word that decodes is the encoding of what it decodes to, and the rows of the
opcode table as ranges of values. -/

namespace Sys2Proof.Proofs

open Sys2Proof.Machine Sys2Proof.Safety

/-! ### The fields of a word as arithmetic on its value -/

theorem lowField_toNat {w : Nat} (x : BitVec w) (len : Nat) : (x.extractLsb' 0 len).toNat = x.toNat % 2 ^ len := by
  rw [field_toNat, pow_zero, Nat.div_one]

/-- `EV`, bits 31:28 (R71). -/
theorem evField_toNat (w : EventWord) : (w.extractLsb' 28 4).toNat = w.toNat / 2 ^ 28 := by
  have hw := w.isLt
  rw [field_toNat]
  omega

/-- `OP`, bits 7:6 (R74). -/
theorem opField_toNat (b : OpByte) : (b.extractLsb' 6 2).toNat = b.toNat / 64 := by
  have hb := b.isLt
  rw [field_toNat]
  omega

/-- The must-be-zero bits 5:3 of DRVLO and REL (R79). -/
theorem lineMbz_eq_zero_iff (b : OpByte) : b.extractLsb' 3 3 = 0 ↔ b.toNat % 64 / 8 = 0 := by
  rw [field_eq_iff]
  simp only [BitVec.ofNat_eq_ofNat, BitVec.toNat_ofNat]
  omega

theorem whenZero_eq_instr {w : Nat} {mbz : BitVec w} {i j : Instr} (h : whenZero mbz i = .instr j) :
    mbz.toNat = 0 ∧ i = j := by
  obtain ⟨rfl, hi⟩ := decode_whenZero h
  exact ⟨by simp, hi⟩

/-! ### The line field (R74) -/

/-- A field names at most one line, and it is that line's own field. -/
theorem field_of_lineOfField {l : BitVec 3} {line : Line} (h : lineOfField l = some line) : line.field = l := by
  have hall : ∀ l : BitVec 3, ∀ line ∈ lineOfField l, line.field = l := by decide
  exact hall l line h

/-! ### What a micro-op that decodes is -/

/-- What the operand of DRVLO or REL must be to decode: a line in its own field, below zero bits (R79). -/
theorem decodeLine_cases {numBtn : Fin 3} {b : OpByte} {op : Line → Instr} {i : Instr}
    (h : decodeLine numBtn b op = .instr i) : ∃ line, b.toNat % 64 = line.field.toNat ∧ i = op line := by
  unfold decodeLine at h
  split at h
  next hz =>
    split at h
    next => cases h
    next line hl =>
      have hmbz := (lineMbz_eq_zero_iff b).1 hz
      have hfield : line.field.toNat = b.toNat % 8 := by rw [field_of_lineOfField hl]; exact lowField_toNat b 3
      refine ⟨line, by omega, ?_⟩
      split at h
      · exact (Decoded.instr.inj h).symm
      · cases h
  next => cases h

/-- What a micro-op must be to decode to an instruction (R74). -/
theorem decodeLineOp_cases {numBtn : Fin 3} {b : OpByte} {i : Instr} (h : decodeLineOp numBtn b = .instr i) :
    (∃ line, b.toNat = line.field.toNat ∧ i = .drvlo line) ∨
    (∃ line, b.toNat = 0x40 + line.field.toNat ∧ i = .rel line) ∨
    (∃ n, b.toNat = 0x80 + n.toNat ∧ i = .setnib n) ∨
    (b.toNat = 0xC0 ∧ i = .relall) := by
  have hb := b.isLt
  unfold decodeLineOp at h
  rw [opField_toNat] at h
  split at h
  · obtain ⟨line, hl, rfl⟩ := decodeLine_cases h
    exact .inl ⟨line, by omega, rfl⟩
  · obtain ⟨line, hl, rfl⟩ := decodeLine_cases h
    exact .inr (.inl ⟨line, by omega, rfl⟩)
  · obtain ⟨hz, rfl⟩ := whenZero_eq_instr h
    rw [field_toNat] at hz
    exact .inr (.inr (.inl ⟨b.extractLsb' 0 4, by rw [lowField_toNat]; omega, rfl⟩))
  next h0 h1 h2 =>
    obtain ⟨hz, rfl⟩ := whenZero_eq_instr h
    rw [lowField_toNat] at hz
    simp only [imp_false] at h0 h1 h2
    exact .inr (.inr (.inr ⟨by omega, rfl⟩))

/-! ### A word that decodes is the encoding of what it decodes to -/

theorem event_eq_of_toNat {v w : EventWord} (h : w.toNat = v.toNat) : CodeWord.event v = .event w :=
  congrArg CodeWord.event (BitVec.eq_of_toNat_eq h.symm)

theorem encode_report_fields {w : EventWord} (h : w.toNat / 2 ^ 28 = 4) :
    encode (.report (w.extractLsb' 24 4) (w.extractLsb' 16 8) (w.extractLsb' 8 8) (w.extractLsb' 0 8)) = .event w := by
  refine event_eq_of_toNat ?_
  rw [reportWord_toNat]
  simp only [field_toNat]
  omega

theorem encode_clk_lowBit {w : EventWord} (h : w.toNat / 2 = 0x30000000) : encode (.clk (w.getLsbD 0)) = .event w := by
  have hbit : (BitVec.ofBool (w.getLsbD 0)).toNat = w.toNat % 2 := by
    rw [BitVec.toNat_ofBool, BitVec.getLsbD, Nat.testBit_zero]
    rcases Nat.mod_two_eq_zero_or_one w.toNat with h | h <;> simp [h]
  refine event_eq_of_toNat ?_
  simp only [append_toNat, hbit, BitVec.toNat_ofNat]
  omega

theorem encode_of_decodeEvent {w : EventWord} {i : Instr} (h : decodeEvent w = .instr i) : encode i = .event w := by
  rcases decodeEvent_cases h with ⟨hw, rfl⟩ | ⟨hw, rfl⟩ | ⟨hw, rfl⟩ | ⟨hw, rfl⟩ | ⟨hw, rfl⟩ | ⟨hw, rfl⟩
  · exact event_eq_of_toNat hw
  · exact event_eq_of_toNat hw
  · exact event_eq_of_toNat hw
  · exact encode_report_fields hw
  · exact event_eq_of_toNat hw
  · exact encode_clk_lowBit hw

theorem encode_of_decodeLineOp {numBtn : Fin 3} {b : OpByte} {i : Instr} (h : decodeLineOp numBtn b = .instr i) :
    encode i = .lineOp b := by
  rcases decodeLineOp_cases h with ⟨line, hb, rfl⟩ | ⟨line, hb, rfl⟩ | ⟨n, hb, rfl⟩ | ⟨hb, rfl⟩ <;>
    refine congrArg CodeWord.lineOp (BitVec.eq_of_toNat_eq ?_) <;>
    simp only [append_toNat, BitVec.toNat_ofNat] <;> omega

theorem encode_of_decode {numBtn : Fin 3} {c : CodeWord} {i : Instr} (h : decode numBtn c = .instr i) :
    encode i = c := by
  cases c with
  | event w => exact encode_of_decodeEvent h
  | lineOp b => exact encode_of_decodeLineOp h

/-! ### The rows of the opcode table as ranges of values (R80) -/

/-- How many bits at the low end of an instruction's word its row's mask leaves free: they are operands. -/
def operandBits : Instr → Nat
  | .reset | .mount | .unmount | .fg | .relall => 0
  | .report _ _ _ _ => 28
  | .clk _ => 1
  | .drvlo _ | .rel _ => 3
  | .setnib _ => 4

theorem row_mask (i : Instr) : i.row.mask = (2 ^ (i.row.nbits - operandBits i) - 1) <<< operandBits i := by
  cases i <;> simp only [Instr.row, operandBits] <;> decide

/-- Masking with `n` ones above `k` zeros clears the low `k` bits of a word of at most `k + n` bits. -/
theorem and_highMask {v k n : Nat} (hv : v < 2 ^ (k + n)) : v &&& (2 ^ n - 1) <<< k = v / 2 ^ k * 2 ^ k := by
  have hs : v >>> k < 2 ^ n := by
    rw [Nat.shiftRight_eq_div_pow, Nat.div_lt_iff_lt_mul (by positivity), Nat.mul_comm, ← Nat.pow_add]
    exact hv
  rw [← Nat.shiftRight_eq_div_pow, ← Nat.shiftLeft_eq, ← Nat.and_two_pow_sub_one_of_lt_two_pow hs]
  refine Nat.eq_of_testBit_eq fun j => ?_
  by_cases hj : k ≤ j <;> simp [hj, Bool.and_comm]

theorem value_lt (c : CodeWord) : c.value.2 < 2 ^ c.value.1 := by
  cases c with
  | event w => exact w.isLt
  | lineOp b => exact b.isLt

/-- A row's words are those of its width that are its match above the operand bits. -/
theorem row_holds_iff (i : Instr) (c : CodeWord) :
    i.row.holds c = true ↔
      c.value.1 = i.row.nbits ∧ c.value.2 / 2 ^ operandBits i * 2 ^ operandBits i = i.row.pattern := by
  simp only [OpcodeRow.holds, Bool.and_eq_true, beq_iff_eq]
  refine and_congr_right fun hn => ?_
  have hv : c.value.2 < 2 ^ (operandBits i + (i.row.nbits - operandBits i)) := by
    rw [← hn]
    exact (value_lt c).trans_le (Nat.pow_le_pow_right two_pos le_add_tsub)
  rw [row_mask, and_highMask hv]

theorem row_holds_encode (i : Instr) : i.row.holds (encode i) = true := by
  cases i with
  | report len b0 b1 b2 =>
    rw [row_holds_iff]
    simp only [encode, CodeWord.value, reportWord_toNat, Instr.row, operandBits, true_and]
    omega
  | clk lvl => revert lvl; decide
  | drvlo line => cases line with
    | d i => revert i; decide
    | b k => revert k; decide
  | rel line => cases line with
    | d i => revert i; decide
    | b k => revert k; decide
  | setnib n => revert n; decide
  | _ => decide

theorem row_holds_of_decode {numBtn : Fin 3} {c : CodeWord} {i : Instr} (h : decode numBtn c = .instr i) :
    i.row.holds c = true := by
  rw [← encode_of_decode h]
  exact row_holds_encode i

theorem nbits_of_decode {numBtn : Fin 3} {c : CodeWord} {i : Instr} (h : decode numBtn c = .instr i) :
    i.row.nbits = c.value.1 :=
  ((row_holds_iff i c).1 (row_holds_of_decode h)).1.symm

/-- The row that the class field of a word names: `EV`, bits 31:28 (R72), or `OP`, bits 7:6 (R74). -/
def rowOfClass : CodeWord → Option OpcodeRow
  | .event w =>
    match w.toNat / 0x10000000 with
    | 1 => some Instr.reset.row
    | 2 => some Instr.mount.row
    | 3 => some Instr.unmount.row
    | 4 => some (Instr.report 0 0 0 0).row
    | 5 => some Instr.fg.row
    | 6 => some (Instr.clk false).row
    | _ => none
  | .lineOp b =>
    match b.toNat / 0x40 with
    | 0 => some (Instr.drvlo (.d 0)).row
    | 1 => some (Instr.rel (.d 0)).row
    | 2 => some (Instr.setnib 0).row
    | 3 => some Instr.relall.row
    | _ => none

/-- The class field is above the operand bits of every row, so a word is a word of no row but the one it names. -/
theorem rowOfClass_of_holds {i : Instr} {c : CodeWord} (h : i.row.holds c = true) : rowOfClass c = some i.row := by
  obtain ⟨hn, hp⟩ := (row_holds_iff i c).1 h
  cases c with
  | event w =>
    have hev : w.toNat / 0x10000000 = i.row.pattern / 0x10000000 := by
      cases i <;> simp only [CodeWord.value, Instr.row, operandBits] at hn hp ⊢ <;> omega
    cases i <;> simp only [rowOfClass, hev, Instr.row] <;> cases hn
  | lineOp b =>
    have hop : b.toNat / 0x40 = i.row.pattern / 0x40 := by
      cases i <;> simp only [CodeWord.value, Instr.row, operandBits] at hn hp ⊢ <;> omega
    cases i <;> simp only [rowOfClass, hop, Instr.row] <;> cases hn

/-! ### The decoders' answers -/

theorem decode_total (numBtn : Fin 3) (c : CodeWord) :
    (∃ i, decode numBtn c = .instr i) ∨ ∃ e, decode numBtn c = .illegal e := by
  cases decode numBtn c with
  | instr i => exact .inl ⟨i, rfl⟩
  | illegal e => exact .inr ⟨e, rfl⟩

theorem decodeLineOp_has_no_agent {numBtn : Fin 3} {b : OpByte} {i : Instr} (h : decodeLineOp numBtn b = .instr i) :
    agentOf i = none := by
  rcases decodeLineOp_cases h with ⟨_, -, rfl⟩ | ⟨_, -, rfl⟩ | ⟨_, -, rfl⟩ | ⟨-, rfl⟩ <;> rfl

/-! ### The settled statements -/

/-- Settles O1: the round trip of each instruction's encoding. -/
theorem encodedInstructionDecodesBack : Obligations.EncodedInstructionDecodesBack := by
  intro numBtn i hw
  cases i with
  | reset => exact Laws.RoundTrip.reset numBtn hw
  | mount => exact Laws.RoundTrip.mount numBtn hw
  | unmount => exact Laws.RoundTrip.unmount numBtn hw
  | report len b0 b1 b2 => exact Laws.RoundTrip.report len b0 b1 b2 numBtn hw
  | fg => exact Laws.RoundTrip.fg numBtn hw
  | clk lvl => exact Laws.RoundTrip.clk lvl numBtn hw
  | drvlo line => exact Laws.RoundTrip.drvlo line numBtn hw
  | rel line => exact Laws.RoundTrip.rel line numBtn hw
  | setnib n => exact Laws.RoundTrip.setnib n numBtn hw
  | relall => exact Laws.RoundTrip.relall numBtn hw

/-- Settles O2: the value of a word that decodes is that of the encoding, and the decoder answers only lines of the
block. -/
theorem decodedWordEncodesBack : Obligations.DecodedWordEncodesBack :=
  fun _ _ _ h => ⟨encode_of_decode h, decode_wf h⟩

/-- Settles O3: a word that decodes is an encoding, every encoding is a word of its row, and the class field of a word
names the one row it can be of. -/
theorem decodingFollowsTheOpcodeTable : Obligations.DecodingFollowsTheOpcodeTable :=
  ⟨decode_total,
    fun w _ h => ⟨nbits_of_decode (numBtn := 0) (c := .event w) h, decodeEvent_has_agent h⟩,
    fun _ b _ h => ⟨nbits_of_decode (c := .lineOp b) h, decodeLineOp_has_no_agent h⟩,
    fun _ _ _ h => row_holds_of_decode h,
    fun _ _ _ hi hj => Option.some.inj ((rowOfClass_of_holds hi).symm.trans (rowOfClass_of_holds hj))⟩

/-- Settles O13, by evaluating the decoders. -/
theorem writtenWordsDecode : Obligations.WrittenWordsDecode := by
  unfold Obligations.WrittenWordsDecode
  decide

end Sys2Proof.Proofs

/-! PROOFS. Which words are illegal (R78, R79), what a step does with a word it is given, and that no event issues an
illegal micro-op. -/

namespace Sys2Proof.Proofs

open Sys2Proof.Machine Sys2Proof.Safety

/-! ### Which words are illegal -/

theorem whenZero_illegal_iff {w : Nat} (mbz : BitVec w) (i : Instr) :
    (∃ e, whenZero mbz i = .illegal e) ↔ mbz.toNat ≠ 0 := by
  unfold whenZero
  split <;> simp_all [← BitVec.toNat_inj]

/-- The event words R78 calls illegal, class by class. -/
theorem decodeEvent_illegal_iff (w : EventWord) : (∃ e, decodeEvent w = .illegal e) ↔ illegalEventWord w := by
  unfold decodeEvent
  rw [evField_toNat]
  split
  case h_4 => simp only [reduceCtorEq, exists_false, false_iff]; omega
  case h_7 => simp only [Decoded.illegal.injEq, exists_eq', true_iff, imp_false] at *; omega
  all_goals
    simp only [whenZero_illegal_iff, field_toNat]
    omega

theorem lineOfField_eq_none_iff : ∀ l : BitVec 3, lineOfField l = none ↔ 6 ≤ l.toNat := by decide

/-- The block has the data lines, whose fields are 0 to 3, and its own button lines, from 4 on (R162). -/
theorem present_iff_field_lt (numBtn : Fin 3) (line : Line) :
    line.present numBtn = true ↔ line.field.toNat < 4 + numBtn.val := by
  cases line with
  | d i => revert i numBtn; decide
  | b k => revert k numBtn; decide

theorem decodeLine_illegal_iff (numBtn : Fin 3) (b : OpByte) (op : Line → Instr) :
    (∃ e, decodeLine numBtn b op = .illegal e) ↔
      b.toNat % 64 / 8 ≠ 0 ∨ 6 ≤ b.toNat % 8 ∨ 4 + numBtn.val ≤ b.toNat % 8 := by
  have hfield : (b.extractLsb' 0 3).toNat = b.toNat % 8 := lowField_toNat b 3
  have hnone := lineOfField_eq_none_iff (b.extractLsb' 0 3)
  rw [hfield] at hnone
  unfold decodeLine
  split
  next hz =>
    have hmbz := (lineMbz_eq_zero_iff b).1 hz
    split
    next hl => simp [hnone.1 hl]
    next line hl =>
      have hlt : ¬ 6 ≤ b.toNat % 8 := by simp [← hnone, hl]
      have hp := present_iff_field_lt numBtn line
      rw [field_of_lineOfField hl, hfield] at hp
      split <;> simp_all
  next hz => simp [mt (lineMbz_eq_zero_iff b).2 hz]

/-- The micro-ops R79 calls illegal, operation by operation. -/
theorem decodeLineOp_illegal_iff (numBtn : Fin 3) (b : OpByte) :
    (∃ e, decodeLineOp numBtn b = .illegal e) ↔ illegalLineOp numBtn b := by
  have hb := b.isLt
  unfold decodeLineOp
  rw [opField_toNat]
  split
  · rw [decodeLine_illegal_iff]; omega
  · rw [decodeLine_illegal_iff]; omega
  · rw [whenZero_illegal_iff, field_toNat]; omega
  next h0 h1 h2 =>
    simp only [imp_false] at h0 h1 h2
    rw [whenZero_illegal_iff, lowField_toNat]; omega

/-! ### What is refused and what is not -/

/-- No event writes the refusals: of the instructions only DRVLO and REL do (R37, R79). -/
theorem effect_refusals_of_agent {i : Instr} (s : State) (h : (agentOf i).isSome = true) :
    (effect i s).refusals = s.refusals := by
  cases i with
  | drvlo line => cases h
  | rel line => cases h
  | _ => exact effect_same (f := .refusals) s rfl

theorem onLine_of_absent {line : Line} {s : State} (op : State → State) (h : line.present s.cfg.numBtn = false) :
    onLine line op s = refuseLineOp s := by
  simp [onLine, h]

theorem withFetchWord_of_codeWordOf {s : State} {nbits w : Nat} {c : CodeWord} (h : codeWordOf nbits w = some c) :
    s.withFetchWord nbits w = putInput c s := by
  simp [State.withFetchWord, h]

/-! ### The settled statements -/

/-- Settles O4: the words R78 names are those that do not decode, and a step refuses such a word. -/
theorem illegalEventWordsOnlyMark : Obligations.IllegalEventWordsOnlyMark := by
  refine ⟨decodeEvent_illegal_iff, fun s w rest hs hw => ?_, by simp [illegalEventWord]⟩
  obtain ⟨e, he⟩ := (decodeEvent_illegal_iff w).2 hw
  exact step_of_illegal hs he

/-- Settles O5: the micro-ops R79 names are those that do not decode, a step refuses such a micro-op, and no event
writes the refusals. -/
theorem illegalLineOpsOnlyMark : Obligations.IllegalLineOpsOnlyMark := by
  refine ⟨decodeLineOp_illegal_iff, fun s b rest hs hb => ?_, fun i s t ha h => ?_⟩
  · obtain ⟨e, he⟩ := (decodeLineOp_illegal_iff s.cfg.numBtn b).2 hb
    exact step_of_illegal hs he
  · rw [exec_eq_effect] at h
    cases h
    rw [effect_refusals_of_agent s ha]

/-- Settles O11: the placed word is the head of the inbox, and taking it gives the state it was placed into. -/
theorem fetchedWordRuns : Obligations.FetchedWordRuns := by
  intro s nbits w c i hc hd
  rw [withFetchWord_of_codeWordOf hc, exec_eq_effect]
  exact step_of_instr rfl hd

/-- Settles O39: the operation on a line the block does not have is the refusal. -/
theorem absentButtonLineIsRefused : Obligations.AbsentButtonLineIsRefused := by
  intro k s hk
  have habs : (Line.b k).present s.cfg.numBtn = false := decide_eq_false (by omega)
  simp only [exec_eq_effect, effect, onLine_of_absent _ habs]
  exact ⟨rfl, rfl⟩

end Sys2Proof.Proofs

/-! PROOFS. The assembler: the pseudo-instructions (R82) and the worked encodings (R83). -/

namespace Sys2Proof.Proofs

open Sys2Proof.Machine

theorem strobe_length (k : Nat) (lvl : Bool) : (strobe k lvl).length = k := by
  induction k generalizing lvl with
  | zero => rfl
  | succ k ih => simp [strobe, ih]

/-- The levels of STROBE alternate, beginning with the opposite of the tracked one (R82). -/
theorem strobe_getElem? {k j : Nat} (lvl : Bool) (hj : j < k) :
    (strobe k lvl)[j]? = some (.clk (lvl ^^ decide (j % 2 = 0))) := by
  induction k generalizing j lvl with
  | zero => omega
  | succ k ih =>
    cases j with
    | zero => simp [strobe]
    | succ j =>
      have hflip : decide ((j + 1) % 2 = 0) = !decide (j % 2 = 0) := by
        rw [← decide_not, decide_eq_decide]
        omega
      simp [strobe, ih (!lvl) (Nat.lt_of_succ_lt_succ hj), hflip]

/-! ### The settled statements -/

/-- Settles O6: each source line is read and encoded by evaluation, one line at a time. -/
theorem workedEncodingsAssemble : Obligations.WorkedEncodingsAssemble := by
  intro lvl
  simp only [List.map_cons, List.map_nil, List.cons.injEq]
  exact ⟨rfl, rfl, rfl, rfl, rfl, rfl, rfl, rfl, rfl, rfl, rfl, rfl, rfl, rfl, trivial⟩

/-- Settles O7: each expansion from what its operands read as, and STROBE by induction on the number of edges. -/
theorem pseudoInstructionsExpand : Obligations.PseudoInstructionsExpand := by
  refine fun lvl => ⟨fun tx ty x y hx hy => ?_, fun tb tx ty b x y hb hx hy => ?_, rfl, rfl, fun tk k hk => ?_,
    fun tn n hn hle => ?_⟩
  · simp [expand, hx, hy]
  · simp [expand, hb, hx, hy]
  · exact ⟨strobe k lvl, by simp [expand, hk], strobe_length k lvl, fun _ => strobe_getElem? lvl⟩
  · have hlen : min n 15 = n := by omega
    simp [expand, hn, hle, lenOf, hlen]

end Sys2Proof.Proofs

/-! PROOFS. `ROUND` (R101) and the scaled sample (R100): the fraction arithmetic of the model as a function of the
rational number that the fraction stands for. -/

namespace Sys2Proof.Proofs

open Sys2Proof.Machine

/-! ### Rounding a fraction is rounding its value -/

/-- An integer nearest to `q`, at a tie the one the rule says (R101). -/
def nearestInt (t : TieRule) (q : ℚ) : ℤ :=
  if Int.fract q < 1 / 2 then ⌊q⌋
  else if 1 / 2 < Int.fract q then ⌊q⌋ + 1
  else
    match t with
    | .awayFromZero => if 0 ≤ q then ⌊q⌋ + 1 else ⌊q⌋
    | .anyNearest => if Config.tieGoesUp ⌊q⌋ then ⌊q⌋ + 1 else ⌊q⌋

/-- The remainder against half the denominator is the fractional part against one half. -/
theorem fract_vs_half (num : ℤ) {den : ℕ} (hden : 0 < den) :
    (2 * (num % den) < den ↔ Int.fract ((num : ℚ) / den) < 1 / 2) ∧
    ((den : ℤ) < 2 * (num % den) ↔ 1 / 2 < Int.fract ((num : ℚ) / den)) := by
  have hpos : (0 : ℚ) < den := by exact_mod_cast hden
  rw [Int.fract_div_intCast_eq_div_intCast_mod, div_lt_div_iff₀ hpos two_pos, div_lt_div_iff₀ two_pos hpos]
  constructor
  · rw [mul_comm, one_mul]; exact_mod_cast Iff.rfl
  · rw [mul_comm _ (2 : ℚ), one_mul]; exact_mod_cast Iff.rfl

theorem roundFrac_eq_nearestInt (t : TieRule) (num : ℤ) {den : ℕ} (hden : 0 < den) :
    roundFrac t num den = nearestInt t ((num : ℚ) / den) := by
  obtain ⟨hbelow, habove⟩ := fract_vs_half num hden
  have hsign : 0 ≤ num ↔ 0 ≤ (num : ℚ) / den := by
    rw [le_div_iff₀ (by exact_mod_cast hden), zero_mul]; exact_mod_cast Iff.rfl
  cases t <;> simp only [roundFrac, nearestInt, Rat.floor_intCast_div_natCast, hbelow, habove, hsign]

theorem roundQ_eq_nearestInt (t : TieRule) (q : ℚ) : roundQ t q = nearestInt t q := by
  rw [roundQ, roundFrac_eq_nearestInt t q.num q.den_pos, Rat.num_div_den]

/-! ### Nearest integers -/

/-- Rounding goes down only below one half or at it, and up only from it on. -/
theorem nearestInt_cases (t : TieRule) (q : ℚ) :
    (nearestInt t q = ⌊q⌋ ∧ Int.fract q ≤ 1 / 2) ∨ (nearestInt t q = ⌊q⌋ + 1 ∧ 1 / 2 ≤ Int.fract q) := by
  unfold nearestInt
  split
  next h => exact .inl ⟨rfl, h.le⟩
  next hlow =>
    split
    next h => exact .inr ⟨rfl, h.le⟩
    next hhigh =>
      have htie : Int.fract q = 1 / 2 := le_antisymm (not_lt.1 hhigh) (not_lt.1 hlow)
      cases t <;> simp only [htie] <;> split <;> simp

/-- `ROUND` is within one half of its argument (R101). -/
theorem roundQ_dist (t : TieRule) (q : ℚ) : |(roundQ t q : ℚ) - q| ≤ 1 / 2 := by
  have hq := Int.floor_add_fract q
  have h0 := Int.fract_nonneg q
  have h1 := Int.fract_lt_one q
  rw [roundQ_eq_nearestInt, abs_le]
  rcases nearestInt_cases t q with ⟨h, hf⟩ | ⟨h, hf⟩ <;> rw [h]
  · constructor <;> linarith
  · push_cast
    constructor <;> linarith

/-- An integer nearer than one half is the only one that near, so both tie rules give it (R101). -/
theorem roundQ_of_dist_lt {q : ℚ} {n : ℤ} (h : |(n : ℚ) - q| < 1 / 2) (t : TieRule) : roundQ t q = n := by
  have hlt : |(roundQ t q : ℚ) - n| < 1 := by
    calc |(roundQ t q : ℚ) - n| ≤ |(roundQ t q : ℚ) - q| + |q - n| := abs_sub_le _ _ _
      _ < 1 / 2 + 1 / 2 := add_lt_add_of_le_of_lt (roundQ_dist t q) (by rwa [abs_sub_comm])
      _ = 1 := by norm_num
  have hzero : roundQ t q - n = 0 := Int.abs_lt_one_iff.1 (by exact_mod_cast hlt)
  exact sub_eq_zero.1 hzero

theorem roundQ_intCast (t : TieRule) (n : ℤ) : roundQ t n = n := roundQ_of_dist_lt (by norm_num) t

/-- The default rule takes the integer farther from zero at a tie (R101). -/
theorem roundQ_awayFromZero_half (n : ℤ) :
    roundQ .awayFromZero ((n : ℚ) + 1 / 2) = if 0 ≤ n then n + 1 else n := by
  have hfloor : ⌊(n : ℚ) + 1 / 2⌋ = n := by rw [Int.floor_intCast_add]; norm_num
  have hfract : Int.fract ((n : ℚ) + 1 / 2) = 1 / 2 := by rw [Int.fract, hfloor]; ring
  have hsign : 0 ≤ (n : ℚ) + 1 / 2 ↔ 0 ≤ n := by rw [← Int.floor_nonneg, hfloor]
  simp only [roundQ_eq_nearestInt, nearestInt, hfloor, hfract, hsign, lt_irrefl, if_false]

/-- The scaled sample is the rounded exact product: the fraction it rounds has that value (R100). -/
theorem scaleSample_eq_roundQ (c : Config) (d : ℤ) : scaleSample c d = roundQ c.ties (c.scale * (d : ℚ)) := by
  have hvalue : ((c.scale.num * d : ℤ) : ℚ) / c.scale.den = c.scale * d := by
    rw [Int.cast_mul, mul_div_right_comm, Rat.num_div_den]
  rw [scaleSample, roundFrac_eq_nearestInt _ _ c.scale.den_pos, hvalue, roundQ_eq_nearestInt]

theorem scaleSample_of_scale_one {c : Config} (h : c.scale = 1) (d : ℤ) : scaleSample c d = d := by
  rw [scaleSample_eq_roundQ, h, one_mul, roundQ_intCast]

/-! ### The settled statements -/

/-- Settles O43: `ROUND` is the floor or the next integer by the fractional part, and the ties are the halves. -/
theorem roundTakesTheNearestInteger : Obligations.RoundTakesTheNearestInteger := by
  refine ⟨roundQ_dist, fun _ _ => roundQ_of_dist_lt, fun n hn => ?_, fun n hn => ?_, ?_, ?_, ?_, ?_⟩
  · rw [roundQ_awayFromZero_half, if_pos hn]
  · rw [roundQ_awayFromZero_half, if_neg (by omega)]
  · exact (by norm_num : (5 / 2 : ℚ) = (2 : ℤ) + 1 / 2) ▸ roundQ_awayFromZero_half 2
  · exact (by norm_num : (-5 / 2 : ℚ) = (-3 : ℤ) + 1 / 2) ▸ roundQ_awayFromZero_half (-3)
  · exact (by norm_num : (1 / 2 : ℚ) = (0 : ℤ) + 1 / 2) ▸ roundQ_awayFromZero_half 0
  · exact (by norm_num : (-1 / 2 : ℚ) = (-1 : ℤ) + 1 / 2) ▸ roundQ_awayFromZero_half (-1)

/-- Settles O44: the sample's fraction is the exact product, and an integer rounds to itself. -/
theorem scaledSampleRoundsTheExactProduct : Obligations.ScaledSampleRoundsTheExactProduct := by
  refine ⟨scaleSample_eq_roundQ, fun _ d h => scaleSample_of_scale_one h d, fun c d h => ?_⟩
  rw [scaleSample_eq_roundQ, h, zero_mul]
  exact roundQ_intCast c.ties 0

end Sys2Proof.Proofs

/-! PROOFS. The motion accumulator over many samples: the sum law of a drain (R105), the bound on the number of reports
below which no sum overflows (R103), and the single REPORT and FG steps that make them up. -/

namespace Sys2Proof.Proofs

open Sys2Proof.Machine Sys2Proof.Safety

/-! ### One report (R102, R103) -/

theorem inW_iff (v : ℤ) : inW v = true ↔ -2147483648 ≤ v ∧ v ≤ 2147483647 := by
  simp [inW]

/-- An accepted report whose sums fit takes them (R102). -/
theorem reportStep_of_fits {len : BitVec 4} {b1 b2 : Byte} {s : State} (b0 : Byte) (hl : 3 ≤ len.toNat)
    (hx : inW (s.accX.toInt + scaleSample s.cfg (sext8 b1)) = true)
    (hy : inW (s.accY.toInt + scaleSample s.cfg (sext8 b2)) = true) :
    reportStep len b0 b1 b2 s = requestReport { s with
      accX := BitVec.ofInt 32 (s.accX.toInt + scaleSample s.cfg (sext8 b1))
      accY := BitVec.ofInt 32 (s.accY.toInt + scaleSample s.cfg (sext8 b2))
      dirty := true
      drvB := buttonsAfter s.cfg b0 s.drvB } := by
  rcases reportStep_cases len b0 b1 b2 s with ⟨hshort, -⟩ | ⟨-, -, -, h⟩ | ⟨-, hn, -⟩
  · omega
  · exact h
  · exact absurd ⟨hx, hy⟩ hn

/-- An accepted report with a sum that does not fit puts the mark instead (R103). -/
theorem reportStep_of_overflow {len : BitVec 4} {b1 b2 : Byte} {s : State} (b0 : Byte) (hl : 3 ≤ len.toNat)
    (hn : ¬(inW (s.accX.toInt + scaleSample s.cfg (sext8 b1)) = true ∧
      inW (s.accY.toInt + scaleSample s.cfg (sext8 b2)) = true)) :
    reportStep len b0 b1 b2 s =
      requestReport { raiseFault .accOverflow s with drvB := buttonsAfter s.cfg b0 s.drvB } := by
  rcases reportStep_cases len b0 b1 b2 s with ⟨hshort, -⟩ | ⟨-, hx, hy, -⟩ | ⟨-, -, h⟩
  · omega
  · exact absurd ⟨hx, hy⟩ hn
  · exact h

/-! ### A drain of a zero sum (R127) -/

/-- Phase 1 drains a dirty accumulator into the pending pair (R188). -/
theorem fgStep_of_dirty {s : State} (hp : s.fgPhase = .idle) (hd : s.dirty = true) :
    fgStep s = { zeroAccumulator s with
      pendX := clamp s.accX.toInt, pendY := clamp s.accY.toInt, fgPhase := .pending } := by
  simpa [hp, hd] using fgStep_cases s

/-- Zeroing a zero accumulator only clears its flag. -/
theorem zeroAccumulator_of_zeroed {s : State} (hx : s.accX = 0) (hy : s.accY = 0) :
    zeroAccumulator s = { s with dirty := false } := by
  cases s
  simp_all [zeroAccumulator, setDirty]

/-- Phase 2 drops a pair (0, 0) under SKIP (R127). -/
theorem fgStep_of_zeroPair {s : State} (hp : s.fgPhase = .pending) (hx : s.pendX = 0) (hy : s.pendY = 0)
    (hz : s.cfg.zeroPolicy = .skip) : fgStep s = { s with fgPhase := .idle } := by
  have hskip : publishesPair s = false := by simp [publishesPair, hx, hy, hz]
  simpa [hp, hskip] using fgStep_cases s

/-! ### The sum law (R105) -/

/-- ACCUMULATE of each sample of a list in turn. -/
def accumulateAll (samples : List (ℤ × ℤ)) (s : State) : State :=
  samples.foldl (fun u d => accumulate d.1 d.2 u) s

/-- The sums of the scaled samples. -/
def scaledSums (c : Config) (samples : List (ℤ × ℤ)) : ℤ × ℤ :=
  ((samples.map fun d => scaleSample c d.1).sum, (samples.map fun d => scaleSample c d.2).sum)

@[simp] theorem accumulateAll_nil (s : State) : accumulateAll [] s = s := rfl

@[simp] theorem accumulateAll_cons (d : ℤ × ℤ) (samples : List (ℤ × ℤ)) (s : State) :
    accumulateAll (d :: samples) s = accumulateAll samples (accumulate d.1 d.2 s) := rfl

theorem scaledSums_cons (c : Config) (d : ℤ × ℤ) (samples : List (ℤ × ℤ)) :
    scaledSums c (d :: samples) = (scaleSample c d.1, scaleSample c d.2) + scaledSums c samples := by
  simp [scaledSums]

theorem accumulate_cfg (dx dy : ℤ) (s : State) : (accumulate dx dy s).cfg = s.cfg := by
  rcases accumulate_cases dx dy s with ⟨-, -, h⟩ | ⟨-, h⟩ <;> simp [h]

/-- An accumulate that leaves no fault was performed (R102), and there was no fault before it (R34). -/
theorem accumulate_of_faultFree {dx dy : ℤ} {s : State} (h : faultFree (accumulate dx dy s)) :
    faultFree s ∧ accPair (accumulate dx dy s) = accPair s + (scaleSample s.cfg dx, scaleSample s.cfg dy) := by
  rcases accumulate_cases dx dy s with ⟨hx, hy, he⟩ | ⟨-, he⟩
  · rw [he] at h ⊢
    exact ⟨h, by simp [accPair, accWord_toInt hx, accWord_toInt hy]⟩
  · simp [he, faultFree] at h

/-- A list of accumulates that leaves no fault adds all its scaled samples: none of them put the mark, since none could
have cleared it. -/
theorem accumulateAll_of_faultFree {samples : List (ℤ × ℤ)} {s : State} (h : faultFree (accumulateAll samples s)) :
    faultFree s ∧ accPair (accumulateAll samples s) = accPair s + scaledSums s.cfg samples := by
  induction samples generalizing s with
  | nil => exact ⟨h, (add_zero _).symm⟩
  | cons d samples ih =>
    obtain ⟨hfree, hsums⟩ := ih h
    obtain ⟨hfree', hadd⟩ := accumulate_of_faultFree hfree
    rw [accumulateAll_cons, hsums, hadd, accumulate_cfg, scaledSums_cons, add_assoc]
    exact ⟨hfree', rfl⟩

theorem scaledSums_of_scale_one {c : Config} (h : c.scale = 1) (samples : List (ℤ × ℤ)) :
    scaledSums c samples = ((samples.map Prod.fst).sum, (samples.map Prod.snd).sum) := by
  simp only [scaledSums, scaleSample_of_scale_one h]

/-! ### The report bound (R103) -/

/-- Both sums are at most what `n` samples with SCALE = 1 can add up to: each is a byte, in [-128, 127] (R10). -/
structure SumsWithin (n : ℕ) (sums : ℤ × ℤ) : Prop where
  xLow : -(128 * n : ℤ) ≤ sums.1
  xHigh : sums.1 ≤ 128 * n
  yLow : -(128 * n : ℤ) ≤ sums.2
  yHigh : sums.2 ≤ 128 * n

theorem SumsWithin.zero (n : ℕ) : SumsWithin n (0, 0) := by constructor <;> simp

theorem SumsWithin.mono {n : ℕ} {sums : ℤ × ℤ} (h : SumsWithin n sums) : SumsWithin (n + 1) sums := by
  obtain ⟨hxl, hxh, hyl, hyh⟩ := h
  constructor <;> push_cast <;> omega

/-- One more sample with SCALE = 1 adds a byte to each sum. -/
theorem SumsWithin.add_sample {n : ℕ} {c : Config} {sums : ℤ × ℤ} (h : SumsWithin n sums) (hc : c.scale = 1)
    (b1 b2 : Byte) :
    SumsWithin (n + 1) (sums.1 + scaleSample c (sext8 b1), sums.2 + scaleSample c (sext8 b2)) := by
  obtain ⟨hxl, hxh, hyl, hyh⟩ := h
  obtain ⟨hxl', hxh'⟩ := sext8_range b1
  obtain ⟨hyl', hyh'⟩ := sext8_range b2
  rw [scaleSample_of_scale_one hc, scaleSample_of_scale_one hc]
  constructor <;> push_cast <;> omega

/-- Sums of fewer than 2^24 samples fit the registers: 128 times 16,777,215 is below 2^31 - 1 (R103). -/
theorem SumsWithin.fits {n : ℕ} {sums : ℤ × ℤ} (h : SumsWithin n sums) (hn : n < 16777216) :
    inW sums.1 = true ∧ inW sums.2 = true := by
  obtain ⟨hxl, hxh, hyl, hyh⟩ := h
  simp only [inW_iff]
  omega

/-- A step adds at most one sample to the sums of I-SUM (R39). -/
theorem sumsAfter_within {n : ℕ} {s : State} {sums : ℤ × ℤ} (h : SumsWithin n sums) (hc : s.cfg.scale = 1) :
    SumsWithin (n + 1) (sumsAfter s sums) := by
  unfold sumsAfter
  split
  case h_2 | h_4 => exact .zero _
  case h_5 len _ b1 b2 _ =>
    split
    · exact h.add_sample hc b1 b2
    · exact h.mono
  case h_6 =>
    split
    · exact .zero _
    · exact h.mono
  all_goals exact h.mono

/-- A report whose sums would fit puts no mark (R102, R182). -/
theorem reportStep_faults_of_fits {len : BitVec 4} {b0 b1 b2 : Byte} {s : State}
    (h : inW (s.accX.toInt + scaleSample s.cfg (sext8 b1)) = true ∧
      inW (s.accY.toInt + scaleSample s.cfg (sext8 b2)) = true) :
    (reportStep len b0 b1 b2 s).faults = s.faults := by
  rcases reportStep_cases len b0 b1 b2 s with ⟨-, he⟩ | ⟨-, -, -, he⟩ | ⟨-, hn, -⟩
  · simp [he]
  · simp [he]
  · exact absurd h hn

/-- The step lemma of the bound: with SCALE = 1, a step from sums of `n` samples leaves the mark as it was while the sums
of one more still fit. -/
theorem step_faults_of_within {n : ℕ} {s t : State} (h : step s = .next t) (hc : s.cfg.scale = 1)
    (hs : SumsWithin n (accPair s)) (hn : n + 1 < 16777216) : t.faults = s.faults := by
  rcases step_by_nextInstr h with ⟨i, rest, c, -, -, -, rfl⟩ | ⟨-, ⟨-, rfl⟩ | ⟨c, rest, -, rfl⟩⟩
  · cases i with
    | report len b0 b1 b2 =>
      exact reportStep_faults_of_fits (s := { s with inbox := rest }) ((hs.add_sample hc b1 b2).fits hn)
    | _ => exact effect_faults_of_not_report { s with inbox := rest } (by simp)
  · rfl
  · exact refuseWord_same c { s with inbox := rest } .faults (by decide)

/-- A run from sums of `n` samples records no fault while `n` and its steps together stay below the bound. -/
theorem runs_faultFree_of_within {k n : ℕ} {s t : State} (h : runs k s t) (hc : s.cfg.scale = 1)
    (hs : SumsWithin n (accPair s)) (hf : faultFree s) (hn : n + k < 16777216) : faultFree t := by
  induction k generalizing n s with
  | zero => rwa [← runs_zero.1 h]
  | succ k ih =>
    obtain ⟨u, hu, hr⟩ := runs_succ.1 h
    have hcfg : u.cfg = s.cfg := configurationIsFixed 1 s u (runs_succ.2 ⟨u, hu, runs_zero.2 rfl⟩)
    have hfu : faultFree u := by rwa [faultFree, step_faults_of_within hu hc hs (by omega)]
    have hsu : SumsWithin (n + 1) (accPair u) := by
      rw [step_accPair hu hfu]
      exact sumsAfter_within hs hc
    exact ih hr (by rw [hcfg, hc]) hsu hfu (by omega)

theorem accPair_of_zeroed {s : State} (hx : s.accX = 0) (hy : s.accY = 0) : accPair s = (0, 0) := by
  simp [accPair, hx, hy]

/-! ### The settled statements -/

/-- Settles O50: each step adds at most one sample, so the sums stay within what the steps so far can have added, which
fits below the bound. -/
theorem noOverflowBelowTheReportBound : Obligations.NoOverflowBelowTheReportBound := by
  intro k s t hc hx hy hf hk h
  have hzero : SumsWithin 0 (accPair s) := accPair_of_zeroed hx hy ▸ SumsWithin.zero 0
  exact runs_faultFree_of_within h hc hzero hf (by omega)

/-- Settles O48, by induction on the samples. -/
theorem drainReturnsTheExactSum : Obligations.DrainReturnsTheExactSum := by
  intro s samples hx hy t ht
  have hdrain : (drain t).1 = scaledSums s.cfg samples := by
    calc accPair t = accPair s + scaledSums s.cfg samples := (accumulateAll_of_faultFree ht).2
      _ = scaledSums s.cfg samples := by rw [accPair_of_zeroed hx hy]; exact zero_add _
  exact ⟨hdrain, fun hc => by rw [hdrain, scaledSums_of_scale_one hc], rfl⟩

/-- Settles O19: the report that takes its sums, read field by field. -/
theorem acceptedReportAccumulates : Obligations.AcceptedReportAccumulates := by
  rintro len b0 b1 b2 s nx ny hl rfl rfl hxl hxh hyl hyh
  have hx := (inW_iff _).2 ⟨hxl, hxh⟩
  have hy := (inW_iff _).2 ⟨hyl, hyh⟩
  refine ⟨reportStep len b0 b1 b2 s, rfl, ?_⟩
  rw [reportStep_of_fits b0 hl hx hy]
  exact ⟨accWord_toInt hx, accWord_toInt hy, rfl, rfl, rfl⟩

/-- Settles O20: the report that puts the mark, read field by field. -/
theorem overflowingReportOnlyMarks : Obligations.OverflowingReportOnlyMarks := by
  rintro len b0 b1 b2 s nx ny hl rfl rfl hn
  refine ⟨reportStep len b0 b1 b2 s, rfl, ?_⟩
  rw [reportStep_of_overflow b0 hl (by simp only [inW_iff]; tauto), buttonUpdate_eq]
  exact ⟨rfl, rfl, rfl, rfl, rfl, rfl, rfl⟩

/-- Settles O26: phase 1 drains the pair (0, 0), which phase 2 drops. -/
theorem zeroMotionLeavesTheFrame : Obligations.ZeroMotionLeavesTheFrame := by
  intro s hp hd hx hy hz
  have hdrain : fgStep s = { s with dirty := false, pendX := 0, pendY := 0, fgPhase := .pending } := by
    rw [fgStep_of_dirty hp hd, zeroAccumulator_of_zeroed hx hy, hx, hy]
    rfl
  refine ⟨fgStep s, fgStep (fgStep s), rfl, rfl, ?_⟩
  rw [hdrain, fgStep_of_zeroPair, ← hp]
  exacts [rfl, rfl, rfl, hz]

end Sys2Proof.Proofs

/-! PROOFS. The Saturator and the Frame Builder (42_frame_builder.md): the clamp's laws (R120, R121), the nibble split of
a delta and the frame built of it (R123, R129), and the publication that restarts the emission (R128). -/

namespace Sys2Proof.Proofs

open Sys2Proof.Machine Sys2Proof.Safety

/-! ### The clamp (R120, R121) -/

theorem clamp_of_range {v : ℤ} (hlo : -127 ≤ v) (hhi : v ≤ 127) : clamp v = v := by
  rw [clamp_eq_max_min, min_eq_right hhi, max_eq_right hlo]

theorem clamp_idem (v : ℤ) : clamp (clamp v) = clamp v :=
  have ⟨hlo, hhi⟩ := clamp_range v
  clamp_of_range hlo hhi

theorem clamp_eq_zero_iff (v : ℤ) : clamp v = 0 ↔ v = 0 := by
  rw [clamp_eq_max_min]
  omega

/-! ### The nibble split (R123) -/

/-- `sext8` undoes `u8` on the range of a byte (R10). -/
theorem sext8_u8 {v : ℤ} (hlo : -128 ≤ v) (hhi : v ≤ 127) : sext8 (u8 v) = v := by
  have hu := u8_toNat v
  unfold sext8
  split <;> omega

/-- The two nibbles of a delta, put together and sign-extended, are the delta (R123). -/
theorem sext8_split_u8 {v : ℤ} (hlo : -128 ≤ v) (hhi : v ≤ 127) :
    sext8 (byteOf (hi4 (u8 v)) (lo4 (u8 v))) = v := by
  rw [byteOf_split, sext8_u8 hlo hhi]

/-- 0x80 is the byte of -128, which the clamp never gives (R123, C1). -/
theorem u8_ne_minByte {v : ℤ} (hlo : -127 ≤ v) (hhi : v ≤ 127) : u8 v ≠ 0x80 := by
  intro h
  have hv : sext8 (u8 v) = v := sext8_u8 (by omega) hhi
  have hmin : sext8 0x80 = -128 := by decide
  rw [h] at hv
  omega

/-- The high nibble holds the sign: it is at most 7 exactly for the deltas at least 0 (R123). -/
theorem hi4_u8_le_iff {v : ℤ} (hlo : -128 ≤ v) (hhi : v ≤ 127) : (hi4 (u8 v)).toNat ≤ 7 ↔ 0 ≤ v := by
  have hu := u8_toNat v
  rw [hi4_toNat]
  omega

/-! ### The settled statements -/

/-- Settles O46: the split is undone by joining and sign-extending, and the byte is the delta modulo 256. -/
theorem nibbleSplitGivesBackTheByte : Obligations.NibbleSplitGivesBackTheByte := by
  refine ⟨fun v hlo hhi => ⟨u8_toNat v, sext8_split_u8 hlo hhi⟩, fun v hlo hhi => ?_⟩
  have hsign := hi4_u8_le_iff (v := v) (by omega) hhi
  exact ⟨u8_ne_minByte hlo hhi, hsign.mpr, fun hneg => by omega⟩

/-- Settles O47: the first three elements as BUILD lists them, the last four by the nibble split. -/
theorem builtFrameGivesBackThePair : Obligations.BuiltFrameGivesBackThePair := by
  intro c x y hxlo hxhi hylo hyhi f
  have hx := sext8_split_u8 (v := x) (by omega) hxhi
  have hy := sext8_split_u8 (v := y) (by omega) hyhi
  exact ⟨rfl, rfl, rfl, rfl, hx, hy⟩

/-- Settles O27: a publication leaves the block active with the cursor at 0, from where the edge shows element 0. -/
theorem publicationRestartsTheFrame : Obligations.PublicationRestartsTheFrame := by
  intro s lvl hp hm hl
  have hfg := exec_fg_of_motion hp hm
  have hedge := exec_clk_of_active (s := publish (build s.cfg s.pendX s.pendY) { s with fgPhase := .idle }) rfl hl
  exact ⟨_, _, hfg, rfl, hedge, nibbleDrivers_shows _, rfl, rfl⟩

/-- Settles O45: the laws from the clamp's formula, the corners by evaluation. -/
theorem clampLaws : Obligations.ClampLaws :=
  ⟨clamp_eq_max_min, clamp_idem, fun _ => clamp_of_range, clamp_eq_zero_iff, by decide⟩

end Sys2Proof.Proofs

/-! PROOFS. The Strobe-Driven Emitter (43_emitter.md): what an edge does (R140 to R144), what holds with no edge (R147) and
before any publication (R146), and the cyclic order of the elements over a run (R145). -/

namespace Sys2Proof.Proofs

open Sys2Proof.Machine Sys2Proof.Safety

/-! ### One CLK (R140 to R144) -/

/-- An edge of a block with no active frame releases every line (R143). -/
theorem exec_clk_of_inactive {s : State} {lvl : Bool} (ha : s.active = false) (hl : lvl ≠ s.clkLevel) :
    exec (.clk lvl) s = .next (releaseAll { s with clkLevel := lvl }) := by
  have hedge : edgeDetect lvl s = releaseAll { s with clkLevel := lvl } := by
    simpa [hl, ha] using edgeDetect_cases lvl s
  rw [exec_eq_effect, effect, hedge]

/-- A CLK writes no field but the four of the emitter (R144). -/
theorem edgeDetect_writes_own (lvl : Bool) (s : State) :
    { edgeDetect lvl s with clkLevel := s.clkLevel, cursor := s.cursor, drvD := s.drvD, drvB := s.drvB } = s := by
  rcases edgeDetect_cases lvl s with ⟨-, h⟩ | ⟨-, -, h⟩ | ⟨-, -, h⟩ <;> rw [h] <;> rfl

/-! ### Steps with no edge and no publication (R147) -/

/-- A step that runs FG and is no publication is not the publishing phase 2 (R127). -/
theorem publishesPair_of_not_publicationNext {s : State} (hp : publicationNext s = false)
    (hfg : nextInstr s = some .fg) (hph : s.fgPhase = .pending) : publishesPair s = false := by
  have hnext : publicationNext s = publishesPair s := by simp [publicationNext, publishesPair, hfg, hph]
  exact hnext.symm.trans hp

/-- A step that runs CLK and is no edge has the level last sampled (R32). -/
theorem level_of_not_edgeNext {s : State} {lvl : Bool} (he : edgeNext s = false)
    (hclk : nextInstr s = some (.clk lvl)) : lvl = s.clkLevel := by
  simpa [edgeNext, hclk] using he

/-- The FG steps that publish nothing leave the frame, its flag, its cursor and the lines (R188, R189). -/
theorem fgStep_same_of_no_publication {s : State} {f : Field} (hp : s.fgPhase = .pending → publishesPair s = false)
    (hf : f ∈ [Field.frame, .cursor, .active, .drvD, .drvB]) : f.same s (fgStep s) := by
  rcases fgStep_cases s with ⟨-, -, h⟩ | ⟨-, -, h⟩ | ⟨-, -, h⟩ | ⟨hph, hpub, -⟩
  case inr.inr.inr => rw [hp hph] at hpub; cases hpub
  all_goals rw [h]; fin_cases hf <;> rfl

/-- With no edge and no publication, a field of the emitter holds in every step whose instruction, FG and CLK aside, is
no listed writer of it (R37, R147). -/
theorem step_same_of_no_emission {s t : State} {f : Field} (h : step s = .next t) (he : edgeNext s = false)
    (hp : publicationNext s = false) (hf : f ∈ [Field.frame, .cursor, .active, .drvD, .drvB])
    (hi : ∀ i, nextInstr s = some i → i ≠ .fg → (∀ lvl, i ≠ .clk lvl) → listedWriter i f = false) :
    f.same s t := by
  rcases step_by_nextInstr h with ⟨i, rest, -, -, -, hn, rfl⟩ | ⟨hn, -⟩
  · refine same_of_takeWord (rest := rest) ?_
    cases i with
    | fg =>
      have hpub := publishesPair_of_not_publicationNext hp hn
      exact fgStep_same_of_no_publication hpub hf
    | clk lvl =>
      have hstill : edgeDetect lvl { s with inbox := rest } = { s with inbox := rest } := by
        simp [edgeDetect, level_of_not_edgeNext he hn]
      rw [effect, hstill]
      cases f <;> rfl
    | _ => exact effect_same _ (hi _ hn (by simp) (by simp))
  · exact step_same h (by simp [hn]) fun _ => by rintro rfl; simp at hf

/-- The instruction of a step on an event word is one that an agent issues (R51, R74). -/
theorem nextInstr_has_agent {s : State} {i : Instr} (hev : eventsOnly s) (hn : nextInstr s = some i) :
    (agentOf i).isSome = true := by
  cases hin : s.inbox with
  | nil => simp [nextInstr, hin] at hn
  | cons c rest =>
    have hd : decode s.cfg.numBtn c = .instr i := by
      cases hc : decode s.cfg.numBtn c <;> simp_all [nextInstr]
    exact decode_has_agent (hev c (by simp [hin])) hd

/-- FG and CLK aside, the events that write the cursor or a line are RESET, UNMOUNT for the cursor and REPORT for the
button lines (R37). -/
theorem writer_of_event {i : Instr} {f : Field} (ha : (agentOf i).isSome = true) (hfg : i ≠ .fg)
    (hclk : ∀ lvl, i ≠ .clk lvl) (hf : f ∈ [Field.cursor, .drvD, .drvB]) (hw : listedWriter i f = true) :
    i = .reset ∨ (i = .unmount ∧ f = .cursor) ∨ ∃ len b0 b1 b2, i = .report len b0 b1 b2 ∧ f = .drvB := by
  cases i with
  | reset => exact .inl rfl
  | mount => fin_cases hf <;> cases hw
  | unmount => fin_cases hf <;> simp_all [listedWriter]
  | report len b0 b1 b2 => fin_cases hf <;> simp_all [listedWriter]
  | fg => exact absurd rfl hfg
  | clk lvl => exact absurd rfl (hclk lvl)
  | _ => cases ha

/-! ### Before any publication (R146) -/

/-- Only a publication makes a frame active (R27, R126). -/
theorem step_inactive {s t : State} (h : step s = .next t) (hp : publicationNext s = false) (ha : s.active = false) :
    t.active = false := by
  rcases step_by_nextInstr h with ⟨i, rest, -, -, -, hn, rfl⟩ | ⟨hn, -⟩
  · cases i with
    | reset => rfl
    | unmount => rfl
    | fg =>
      have hpub := publishesPair_of_not_publicationNext hp hn
      have hkeep : Field.active.same { s with inbox := rest } (fgStep { s with inbox := rest }) :=
        fgStep_same_of_no_publication hpub (by decide)
      exact Eq.trans hkeep ha
    | _ => exact Eq.trans (step_same (f := .active) h (by simp [hn, listedWriter]) (by simp)) ha
  · exact Eq.trans (step_same (f := .active) h (by simp [hn]) (by simp)) ha

/-- With no publication over a run, a block with no active frame has none at its end. -/
theorem runs_inactive {k : Nat} {s t : State} (h : runs k s t) (hd : during (fun v => !publicationNext v) k s)
    (ha : s.active = false) : t.active = false := by
  refine runs_induction (P := fun k s t => during (fun v => !publicationNext v) k s → s.active = false →
    t.active = false) (fun _ _ ha => ha) (fun k s u t hu _ ih hd ha => ?_) k s t h hd ha
  obtain ⟨hp, hd'⟩ := during_succ hu hd
  exact ih hd' (step_inactive hu (by simpa using hp) ha)

/-- No frame is active after power-on or a RESET (R41, R230). -/
theorem inactive_of_launched_or_reset {s : State} (h : launched s ∨ ∃ r, exec .reset r = .next s) :
    s.active = false := by
  rcases h with ⟨hs, -⟩ | ⟨r, hr⟩
  · rw [hs]; rfl
  · cases hr; rfl

/-! ### The cyclic order over a run (R145) -/

/-- What `n` edges of an active frame make of `s`, whatever steps keep the frame between them. -/
structure Emitted (n : Nat) (s t : State) : Prop where
  active : t.active = true
  frame : t.frame = s.frame
  cursor : t.cursor.val = (s.cursor.val + n) % 7
  /-- The last edge showed the element before the cursor. -/
  shown : n ≠ 0 → ∀ i : Fin 7, i.val = (s.cursor.val + (n - 1)) % 7 → t.drvD = nibbleDrivers s.frame[i]
  still : n = 0 → t.drvD = s.drvD

theorem Emitted.refl {s : State} (ha : s.active = true) : Emitted 0 s s where
  active := ha
  frame := rfl
  cursor := (Nat.mod_eq_of_lt s.cursor.isLt).symm
  shown h := absurd rfl h
  still _ := rfl

theorem Emitted.trans {m n : Nat} {s u t : State} (h : Emitted m s u) (h' : Emitted n u t) :
    Emitted (m + n) s t where
  active := h'.active
  frame := h'.frame.trans h.frame
  cursor := by have := h.cursor; have := h'.cursor; omega
  shown hmn i hi := by
    by_cases hn : n = 0
    · subst hn
      exact (h'.still rfl).trans (h.shown hmn i hi)
    · have hu := h.cursor
      rw [← h.frame]
      exact h'.shown hn i (by omega)
  still hmn := (h'.still (by omega)).trans (h.still (by omega))

/-- A step that is an edge runs CLK with the other level (R32). -/
theorem step_of_edgeNext {s t : State} (h : step s = .next t) (he : edgeNext s = true) :
    ∃ lvl rest, lvl ≠ s.clkLevel ∧ t = edgeDetect lvl { s with inbox := rest } := by
  rcases step_by_nextInstr h with ⟨i, rest, -, -, -, hn, rfl⟩ | ⟨hn, -⟩
  · cases i with
    | clk lvl => exact ⟨lvl, rest, by simpa [edgeNext, hn] using he, rfl⟩
    | _ => simp [edgeNext, hn] at he
  · simp [edgeNext, hn] at he

/-- An edge of an active frame is one element emitted (R142). -/
theorem edgeDetect_emitted {s : State} {lvl : Bool} (rest : List CodeWord) (ha : s.active = true)
    (hl : lvl ≠ s.clkLevel) : Emitted 1 s (edgeDetect lvl { s with inbox := rest }) := by
  have hedge : edgeDetect lvl { s with inbox := rest } = emitActive { s with inbox := rest, clkLevel := lvl } := by
    simpa [hl, ha] using edgeDetect_cases lvl { s with inbox := rest }
  rw [hedge]
  refine ⟨ha, rfl, nextCursor_val _, fun _ i hi => ?_, by simp⟩
  have hcur : i = s.cursor := by omega
  rw [hcur, emitActive_drvD]

/-- A step that keeps the frame runs no instruction that writes it, FG and CLK aside (R37). -/
theorem not_listedWriter_of_keepsFrame {s : State} {i : Instr} {f : Field} (hk : keepsFrame s = true)
    (hf : f ∈ [Field.frame, .cursor, .active, .drvD]) (hn : nextInstr s = some i) (hfg : i ≠ .fg)
    (hclk : ∀ lvl, i ≠ .clk lvl) : listedWriter i f = false := by
  cases i with
  | mount => fin_cases hf <;> rfl
  | report len b0 b1 b2 => fin_cases hf <;> rfl
  | fg => exact absurd rfl hfg
  | clk lvl => exact absurd rfl (hclk lvl)
  | _ => simp [keepsFrame, hn] at hk

/-- A step that keeps an active frame emits one element of it when it is an edge, and none otherwise. -/
theorem step_emitted {s t : State} (h : step s = .next t) (ha : s.active = true) (hk : keepsFrame s = true) :
    Emitted (if edgeNext s then 1 else 0) s t := by
  cases he : edgeNext s
  · have hp : publicationNext s = false := by simpa using Bool.and_elim_left hk
    have kept (f : Field) (hf : f ∈ [Field.frame, .cursor, .active, .drvD]) : f.same s t :=
      step_same_of_no_emission h he hp (by fin_cases hf <;> decide) fun _ => not_listedWriter_of_keepsFrame hk hf
    have hactive : t.active = s.active := kept .active (by decide)
    have hcursor : t.cursor = s.cursor := kept .cursor (by decide)
    have hstay := Emitted.refl ha
    exact ⟨hactive.trans ha, kept .frame (by decide), hcursor ▸ hstay.cursor, (absurd rfl ·),
      fun _ => kept .drvD (by decide)⟩
  · obtain ⟨lvl, rest, hl, rfl⟩ := step_of_edgeNext h he
    exact edgeDetect_emitted rest ha hl

theorem edgesIn_succ {k : Nat} {s t : State} (h : step s = .next t) :
    edgesIn (k + 1) s = (if edgeNext s then 1 else 0) + edgesIn k t := by
  simp [edgesIn, h]

/-- The cyclic order from any cursor: a run that keeps an active frame emits one element of it for each of its edges. -/
theorem runs_emitted {k : Nat} {s t : State} (h : runs k s t) (ha : s.active = true) (hk : during keepsFrame k s) :
    Emitted (edgesIn k s) s t := by
  refine runs_induction (P := fun k s t => s.active = true → during keepsFrame k s → Emitted (edgesIn k s) s t)
    (fun _ ha _ => .refl ha) (fun k s u t hu _ ih ha hk => ?_) k s t h ha hk
  obtain ⟨hkeep, hk'⟩ := during_succ hu hk
  have hfirst := step_emitted hu ha hkeep
  rw [edgesIn_succ hu]
  exact hfirst.trans (ih hfirst.active hk')

/-! ### The settled statements -/

/-- Settles O33: the cyclic order from cursor 0. -/
theorem edgesEmitTheFrameInCyclicOrder : Obligations.EdgesEmitTheFrameInCyclicOrder := by
  intro k s t ha hc hk h
  obtain ⟨hactive, hframe, hcursor, hshown, hstill⟩ := runs_emitted h ha hk
  simp only [hc, Fin.val_zero, Nat.zero_add] at hcursor hshown
  refine ⟨hactive, hframe, hcursor, fun i hn hi => ?_, hstill⟩
  rw [hshown hn i hi]
  exact nibbleDrivers_shows _

/-- Settles O31: the frame of a CLK, and, since the second state agrees on all that the cases of an edge ask, the same
case in both states with the same values written. -/
theorem emitterReadsAndWritesItsOwn : Obligations.EmitterReadsAndWritesItsOwn := by
  intro lvl s s' t t' h h'
  cases h
  cases h'
  refine ⟨edgeDetect_writes_own lvl s, fun hl ha hc hf hd hb hn => ?_⟩
  rcases edgeDetect_cases lvl s with ⟨hlvl, h⟩ | ⟨hlvl, hact, h⟩ | ⟨hlvl, hact, h⟩
  · have h' : edgeDetect lvl s' = s' := by simpa [hl, hlvl] using edgeDetect_cases lvl s'
    rw [h, h']
    exact ⟨hl, hc, hd, hb⟩
  · have h' : edgeDetect lvl s' = emitActive { s' with clkLevel := lvl } := by
      simpa [hl, hlvl, ha, hact] using edgeDetect_cases lvl s'
    rw [h, h']
    simp [hc, hf, hb]
  · have h' : edgeDetect lvl s' = releaseAll { s' with clkLevel := lvl } := by
      simpa [hl, hlvl, ha, hact] using edgeDetect_cases lvl s'
    rw [h, h']
    simp [hc, hb, hn]

/-- Settles O32: FG and CLK write no field of the emitter then, and of the other events each of the three fields has the
writers the statement excepts. -/
theorem stoppedClockHoldsTheLines : Obligations.StoppedClockHoldsTheLines := by
  intro s t h hev he hp hreset
  have kept (f : Field) (hf : f ∈ [Field.cursor, .drvD, .drvB]) (hu : f = .cursor → nextInstr s ≠ some .unmount)
      (hr : f = .drvB → ∀ len b0 b1 b2, nextInstr s ≠ some (.report len b0 b1 b2)) : f.same s t := by
    refine step_same_of_no_emission h he hp (by fin_cases hf <;> decide) fun i hn hfg hclk => ?_
    by_contra hw
    rcases writer_of_event (nextInstr_has_agent hev hn) hfg hclk hf (by simpa using hw) with
      rfl | ⟨rfl, hcursor⟩ | ⟨len, b0, b1, b2, rfl, hbuttons⟩
    · exact hreset hn
    · exact hu hcursor hn
    · exact hr hbuttons len b0 b1 b2 hn
  exact ⟨kept .drvD (by decide) nofun nofun, fun hu => kept .cursor (by decide) (fun _ => hu) nofun,
    fun hr => kept .drvB (by decide) nofun fun _ => hr⟩

/-- Settles O35: no frame is active at the start, none becomes active without a publication, and then an edge releases
every line. -/
theorem firstEdgeReleasesEveryLine : Obligations.FirstEdgeReleasesEveryLine := by
  intro k s u lvl hs hd h hl
  have ha : u.active = false := runs_inactive h hd (inactive_of_launched_or_reset hs)
  refine ⟨_, exec_clk_of_inactive ha hl, dataReleased_get, fun k hk => ?_⟩
  exact (buttonsReleased_get _ _ k).trans (if_pos hk)

/-- Settles O30: the two words by evaluation, and the three cases of a CLK. -/
theorem clockEdgeEmits : Obligations.ClockEdgeEmits := by
  refine ⟨by decide, by decide, fun _ _ => exec_clk_of_sameLevel, fun lvl s hl ha => ?_, fun lvl s hl ha => ?_⟩
  · exact ⟨_, exec_clk_of_active ha hl, rfl, nibbleDrivers_shows _, nextCursor_val _, rfl⟩
  · exact ⟨_, exec_clk_of_inactive ha hl, rfl, dataReleased_get, buttonsReleased_get _ _, rfl⟩

end Sys2Proof.Proofs

/-! PROOFS. Buttons reach nothing else (R143, R185): every event does the same to a state with everything about buttons
taken out, so a run of event words and its image without buttons go step by step together. -/

namespace Sys2Proof.Proofs

open Sys2Proof.Machine Sys2Proof.Safety

/-! ### Each event without buttons -/

theorem withoutButtons_accumulate (dx dy : Int) (s : State) :
    withoutButtons (accumulate dx dy s) = accumulate dx dy (withoutButtons s) :=
  apply_ite withoutButtons _ _ _

/-- A button update writes what is taken out, and with it taken out it writes nothing (R185). -/
theorem withoutButtons_buttonUpdate (b0 : Byte) (s : State) :
    withoutButtons (buttonUpdate b0 s) = buttonUpdate b0 (withoutButtons s) := by
  rw [buttonUpdate_eq]
  rfl

theorem withoutButtons_reportStep (len : BitVec 4) (b0 b1 b2 : Byte) (s : State) :
    withoutButtons (reportStep len b0 b1 b2 s) = reportStep len b0 b1 b2 (withoutButtons s) := by
  have hrequest (t : State) : withoutButtons (requestReport t) = requestReport (withoutButtons t) := rfl
  simp only [reportStep, hrequest, apply_ite withoutButtons, withoutButtons_buttonUpdate, withoutButtons_accumulate]

/-- Releasing every line of a block with no button lines releases the data lines (R165). -/
theorem withoutButtons_releaseAll (s : State) : withoutButtons (releaseAll s) = releaseAll (withoutButtons s) := by
  have hnone : buttonsReleased 0 #v[.rel, .rel] = #v[.rel, .rel] := by decide
  simp only [releaseAll, withoutButtons, hnone]

theorem withoutButtons_fgStep (s : State) : withoutButtons (fgStep s) = fgStep (withoutButtons s) := by
  have hphase : (withoutButtons s).fgPhase = s.fgPhase := rfl
  cases hp : s.fgPhase <;> simp only [fgStep, hphase, hp]
  · exact apply_ite withoutButtons _ _ _
  · exact apply_ite withoutButtons _ _ _

theorem withoutButtons_emit (s : State) : withoutButtons (emit s) = emit (withoutButtons s) := by
  have hactive : (withoutButtons s).active = s.active := rfl
  cases ha : s.active <;> simp only [emit, hactive, ha]
  · exact withoutButtons_releaseAll s
  · rfl

theorem withoutButtons_edgeDetect (lvl : Bool) (s : State) :
    withoutButtons (edgeDetect lvl s) = edgeDetect lvl (withoutButtons s) :=
  (apply_ite withoutButtons _ _ _).trans (congrArg _ (withoutButtons_emit { s with clkLevel := lvl }))

theorem withoutButtons_effect {i : Instr} (ha : (agentOf i).isSome = true) (s : State) :
    withoutButtons (effect i s) = effect i (withoutButtons s) := by
  cases i with
  | reset => exact withoutButtons_releaseAll _
  | mount => rfl
  | unmount => rfl
  | report len b0 b1 b2 => exact withoutButtons_reportStep len b0 b1 b2 s
  | fg => exact withoutButtons_fgStep s
  | clk lvl => exact withoutButtons_edgeDetect lvl s
  | _ => cases ha

/-! ### A step and a run without buttons -/

theorem onLine_setLine_inbox (line : Line) (v : Driver) (s : State) :
    (onLine line (setLine line v) s).inbox = s.inbox := by
  rcases onLine_setLine_cases line v s with ⟨-, h⟩ | ⟨-, h⟩ <;> rw [h]
  · cases line <;> rfl
  · rfl

/-- No instruction writes the words that wait. -/
theorem effect_inbox (i : Instr) (s : State) : (effect i s).inbox = s.inbox := by
  cases i with
  | reset => rfl
  | mount => rfl
  | unmount => rfl
  | report len b0 b1 b2 =>
    rcases reportStep_cases len b0 b1 b2 s with ⟨-, h⟩ | ⟨-, -, -, h⟩ | ⟨-, -, h⟩ <;> rw [effect, h] <;> rfl
  | fg => rcases fgStep_cases s with ⟨-, -, h⟩ | ⟨-, -, h⟩ | ⟨-, -, h⟩ | ⟨-, -, h⟩ <;> rw [effect, h] <;> rfl
  | clk lvl => rcases edgeDetect_cases lvl s with ⟨-, h⟩ | ⟨-, -, h⟩ | ⟨-, -, h⟩ <;> rw [effect, h] <;> rfl
  | drvlo line => exact onLine_setLine_inbox line .low s
  | rel line => exact onLine_setLine_inbox line .rel s
  | setnib n => rfl
  | relall => rfl

/-- A step takes the first word that waits, when one does, and leaves the others (R52). -/
theorem step_inbox {s t : State} (h : step s = .next t) : t.inbox = s.inbox.tail := by
  rcases step_by_nextInstr h with ⟨i, rest, c, hs, -, -, rfl⟩ | ⟨-, ⟨hs, rfl⟩ | ⟨c, rest, hs, rfl⟩⟩ <;> rw [hs]
  · exact effect_inbox i _
  · rfl
  · cases c <;> rfl

theorem step_eventsOnly {s t : State} (h : step s = .next t) (hev : eventsOnly s) : eventsOnly t := by
  intro c hc
  rw [step_inbox h] at hc
  exact hev c (List.mem_of_mem_tail hc)

/-- How many button lines the block has does not reach the decoding of an event word (R80). -/
theorem decode_event_numBtn {c : CodeWord} (hc : isEventWord c = true) (m n : Fin 3) : decode m c = decode n c := by
  cases c with
  | event w => rfl
  | lineOp b => cases hc

theorem withoutButtons_refuseWord (c : CodeWord) (s : State) :
    withoutButtons (refuseWord c s) = refuseWord c (withoutButtons s) := by
  cases c <;> rfl

/-- A step on event words goes the same way with buttons and without. -/
theorem step_withoutButtons {s t : State} (h : step s = .next t) (hev : eventsOnly s) :
    step (withoutButtons s) = .next (withoutButtons t) := by
  rcases step_cases s with ⟨hs, h'⟩ | ⟨c, rest, i, hs, hd, h'⟩ | ⟨c, rest, e, hs, hd, h'⟩ <;> rw [h'] at h <;> cases h
  · exact step_of_no_word (s := withoutButtons s) hs
  · have hc : isEventWord c = true := hev c (by simp [hs])
    have hd' : decode (withoutButtons s).cfg.numBtn c = .instr i := (decode_event_numBtn hc _ _).trans hd
    rw [step_of_instr (s := withoutButtons s) hs hd', withoutButtons_effect (decode_has_agent hc hd)]
    rfl
  · have hc : isEventWord c = true := hev c (by simp [hs])
    have hd' : decode (withoutButtons s).cfg.numBtn c = .illegal e := (decode_event_numBtn hc _ _).trans hd
    rw [step_of_illegal (s := withoutButtons s) hs hd', withoutButtons_refuseWord]
    rfl

/-! ### The settled statement -/

/-- Settles O60: each step of the run goes the same way without buttons, and leaves only event words for the next. -/
theorem buttonsDoNotReachTheRest : Obligations.ButtonsDoNotReachTheRest := by
  intro k s t hev h
  refine runs_induction (P := fun k s t => eventsOnly s → runs k (withoutButtons s) (withoutButtons t))
    (fun s _ => runs_zero.2 rfl) (fun k s u t hu _ ih hev => ?_) k s t h hev
  have hstep := step_withoutButtons hu hev
  exact runs_succ.2 ⟨withoutButtons u, hstep, ih (step_eventsOnly hu hev)⟩

end Sys2Proof.Proofs

/-! PROOFS. The logic lines (44_logic_line.md): what DRVLO, REL, SETNIB and RELALL write (R160 to R165), their encodings
(R74), and the levels the wires show of it (R164). -/

namespace Sys2Proof.Proofs

open Sys2Proof.Machine Sys2Proof.Safety

/-! ### The encodings of the micro-ops (R74) -/

theorem decodeLineOp_of_encode {numBtn : Fin 3} {b : OpByte} {i : Instr} (hw : i.wf numBtn = true)
    (he : encode i = .lineOp b) : decodeLineOp numBtn b = .instr i := by
  have h := encodedInstructionDecodesBack numBtn i hw
  rwa [he] at h

theorem encode_drvlo_data : ∀ i : Fin 4, encode (.drvlo (.d i)) = .lineOp (BitVec.ofNat 8 i.val) := by decide

theorem encode_drvlo_button : ∀ k : Fin 2, encode (.drvlo (.b k)) = .lineOp (BitVec.ofNat 8 (4 + k.val)) := by decide

theorem encode_rel_data : ∀ i : Fin 4, encode (.rel (.d i)) = .lineOp (BitVec.ofNat 8 (64 + i.val)) := by decide

theorem encode_rel_button : ∀ k : Fin 2, encode (.rel (.b k)) = .lineOp (BitVec.ofNat 8 (68 + k.val)) := by decide

theorem encode_setnib : ∀ n : Nibble, encode (.setnib n) = .lineOp (BitVec.ofNat 8 (128 + n.toNat)) := by decide

theorem button_present {numBtn : Fin 3} {k : Fin 2} (hk : k.val < numBtn.val) : (Line.b k).present numBtn = true :=
  decide_eq_true hk

/-! ### A write to one line (R160, R161) -/

theorem setLine_data_get (i j : Fin 4) (v : Driver) (s : State) :
    (setLine (.d i) v s).drvD[j] = if j = i then v else s.drvD[j] := by
  simp [setLine, Vector.getElem_set, Fin.ext_iff, eq_comm]

theorem setLine_button_get (k j : Fin 2) (v : Driver) (s : State) :
    (setLine (.b k) v s).drvB[j] = if j = k then v else s.drvB[j] := by
  simp [setLine, Vector.getElem_set, Fin.ext_iff, eq_comm]

@[simp] theorem setLine_cfg (line : Line) (v : Driver) (s : State) : (setLine line v s).cfg = s.cfg := by
  cases line <;> rfl

/-- The second write of one driver state to one line changes nothing. -/
theorem setLine_idem (line : Line) (v : Driver) (s : State) : setLine line v (setLine line v s) = setLine line v s := by
  cases line <;> simp [setLine]

theorem onLine_of_present {line : Line} {s : State} (op : State → State) (h : line.present s.cfg.numBtn = true) :
    onLine line op s = op s := by
  simp [onLine, h]

theorem exec_drvlo_of_present {line : Line} {s : State} (h : line.present s.cfg.numBtn = true) :
    exec (.drvlo line) s = .next (setLine line .low s) := by
  rw [exec_eq_effect, effect, onLine_of_present _ h, driveLow]

theorem exec_rel_of_present {line : Line} {s : State} (h : line.present s.cfg.numBtn = true) :
    exec (.rel line) s = .next (setLine line .rel s) := by
  rw [exec_eq_effect, effect, onLine_of_present _ h, release]

/-- An instruction that writes one driver state to a line the block has does no more when it runs twice. -/
theorem exec_idem_of_setLine {op : Line → Instr} {v : Driver}
    (hop : ∀ {line s}, line.present s.cfg.numBtn = true → exec (op line) s = .next (setLine line v s))
    {line : Line} {s : State} (hp : line.present s.cfg.numBtn = true) :
    ∃ t, exec (op line) s = .next t ∧ exec (op line) t = .next t := by
  have hsecond := hop (s := setLine line v s) (by rwa [setLine_cfg])
  rw [setLine_idem] at hsecond
  exact ⟨_, hop hp, hsecond⟩

/-! ### Every line at once (R163, R165) -/

theorem exec_setnib (n : Nibble) (s : State) : exec (.setnib n) s = .next (setNibble n s) := exec_eq_effect _ _

theorem exec_relall (s : State) : exec .relall s = .next (releaseAll s) := exec_eq_effect _ _

theorem nibbleDrivers_zero_get : ∀ i : Fin 4, (nibbleDrivers 0x0)[i] = .low := by decide

theorem dataIdle_iff_shows_ones (d : Vector Driver 4) : dataIdle d ↔ showsNibble d 0xF := by
  have hbit : ∀ i : Fin 4, (0xF : Nibble).getLsbD i.val = true := by decide
  simp only [dataIdle, showsNibble, hbit, if_true]

theorem buttonsReleased_idem (n : Fin 3) (b : Vector Driver 2) :
    buttonsReleased n (buttonsReleased n b) = buttonsReleased n b := by
  refine Vector.ext fun k hk => ?_
  have hget (d : Vector Driver 2) : (buttonsReleased n d)[k] = if k < n.val then .rel else d[k] :=
    buttonsReleased_get n d ⟨k, hk⟩
  by_cases hlt : k < n.val <;> simp only [hget, hlt, if_true, if_false]

theorem releaseAll_idem (s : State) : releaseAll (releaseAll s) = releaseAll s := by
  simp [releaseAll, buttonsReleased_idem]

/-- After RELALL a button line the block has is released. -/
theorem releaseAll_button {k : Fin 2} {s : State} (hk : k.val < s.cfg.numBtn.val) :
    (releaseAll s).button k = some .rel := by
  rw [State.button, releaseAll_cfg, if_pos hk, releaseAll_drvB, buttonsReleased_get, if_pos hk]

theorem numBtn_gt_of_button {k : Fin 2} {v : Driver} {s : State} (h : s.button k = some v) :
    k.val < s.cfg.numBtn.val := by
  unfold State.button at h
  split at h
  · assumption
  · cases h

/-! ### The wires (R164) -/

/-- Under EXT_PULLUP the data wires read the nibble the drivers show. -/
theorem wireD_of_showsNibble {s : State} {n : Nibble} (h : showsNibble s.drvD n) : s.wireD = n := by
  have hwire (i : Fin 4) : s.drvD[i].wire = n.getLsbD i.val := by
    rw [h i]
    cases n.getLsbD i.val <;> rfl
  have h0 : s.drvD[0].wire = n.getLsbD 0 := hwire 0
  have h1 : s.drvD[1].wire = n.getLsbD 1 := hwire 1
  have h2 : s.drvD[2].wire = n.getLsbD 2 := hwire 2
  have h3 : s.drvD[3].wire = n.getLsbD 3 := hwire 3
  have hbits : ∀ m : Nibble, BitVec.ofBool (m.getLsbD 3) ++ BitVec.ofBool (m.getLsbD 2) ++ BitVec.ofBool (m.getLsbD 1)
      ++ BitVec.ofBool (m.getLsbD 0) = m := by decide
  rw [State.wireD, h0, h1, h2, h3, hbits]

theorem setNibble_wireD (n : Nibble) (s : State) : (setNibble n s).wireD = n :=
  wireD_of_showsNibble (nibbleDrivers_shows n)

/-- A write to one data line puts that bit of the nibble the drivers show. -/
theorem setLine_data_shows {s : State} {m n : Nibble} {i : Fin 4} {bit : Bool} (h : showsNibble s.drvD m)
    (hn : ∀ j : Fin 4, n.getLsbD j.val = if j = i then bit else m.getLsbD j.val) :
    showsNibble (setLine (.d i) (Driver.ofBit bit) s).drvD n := by
  intro j
  rw [setLine_data_get, h j, hn j, Driver.ofBit]
  split <;> rfl

theorem releaseAll_wireD (s : State) : (releaseAll s).wireD = 0xF :=
  wireD_of_showsNibble ((dataIdle_iff_shows_ones _).1 dataReleased_idle)

/-! ### The settled statements -/

/-- Settles O37: on a line the block has, DRVLO is the write of LOW to that line. -/
theorem driveLowDrivesOneLine : Obligations.DriveLowDrivesOneLine := by
  refine ⟨fun _ i => decodeLineOp_of_encode rfl (encode_drvlo_data i),
    fun _ k hk => decodeLineOp_of_encode (button_present hk) (encode_drvlo_button k),
    fun i s => ?data, fun k s hk => ?button, fun _ _ hp => ?idem, fun _ hs => ?wire⟩
  case data => exact ⟨_, exec_drvlo_of_present rfl, fun j => setLine_data_get i j .low s, rfl⟩
  case button => exact ⟨_, exec_drvlo_of_present (button_present hk), fun j => setLine_button_get k j .low s, rfl⟩
  case idem => exact exec_idem_of_setLine exec_drvlo_of_present hp
  case wire =>
    have hones := (dataIdle_iff_shows_ones _).1 hs
    exact ⟨_, exec_drvlo_of_present rfl, wireD_of_showsNibble (setLine_data_shows (bit := false) hones (by decide))⟩

/-- Settles O38: on a line the block has, REL is the write of REL to that line. -/
theorem releaseReleasesOneLine : Obligations.ReleaseReleasesOneLine := by
  refine ⟨fun _ i => decodeLineOp_of_encode rfl (encode_rel_data i),
    fun _ k hk => decodeLineOp_of_encode (button_present hk) (encode_rel_button k),
    fun i s => ?data, fun k s hk => ?button, fun _ _ hp => ?idem, fun _ hs => ?wire⟩
  case data => exact ⟨_, exec_rel_of_present rfl, fun j => setLine_data_get i j .rel s, rfl⟩
  case button => exact ⟨_, exec_rel_of_present (button_present hk), fun j => setLine_button_get k j .rel s, rfl⟩
  case idem => exact exec_idem_of_setLine exec_rel_of_present hp
  case wire =>
    exact ⟨_, exec_rel_of_present rfl, wireD_of_showsNibble (setLine_data_shows (bit := true) hs (by decide))⟩

/-- Settles O40: SETNIB writes the drivers that show the nibble, read at each bit. -/
theorem setNibbleDrivesTheDataLines : Obligations.SetNibbleDrivesTheDataLines := by
  refine ⟨fun _ n => decodeLineOp_of_encode rfl (encode_setnib n),
    fun n s => ⟨_, exec_setnib n s, nibbleDrivers_shows n, rfl⟩,
    fun s => ⟨_, exec_setnib 0x0 s, nibbleDrivers_zero_get⟩,
    fun s => ⟨_, exec_setnib 0xF s, (dataIdle_iff_shows_ones _).2 (nibbleDrivers_shows 0xF)⟩,
    fun s => ⟨_, exec_setnib 0xA s, ?drivers, setNibble_wireD 0xA s⟩⟩
  case drivers =>
    rw [setNibble_drvD]
    decide

/-- Settles O41: RELALL writes the released drivers to every line the block has, and they are released after it. -/
theorem releaseAllReleasesEveryLine : Obligations.ReleaseAllReleasesEveryLine := by
  refine ⟨fun _ => decodeLineOp_of_encode rfl rfl, fun s => ?effect, fun s _ hb => ?wire⟩
  case effect =>
    have hsecond := exec_relall (releaseAll s)
    rw [releaseAll_idem] at hsecond
    exact ⟨_, exec_relall s, dataReleased_get, buttonsReleased_get _ _, rfl, hsecond⟩
  case wire => exact ⟨_, exec_relall s, releaseAll_wireD s, releaseAll_button (numBtn_gt_of_button hb)⟩

/-- Settles O42: the level of each driver state by its equation, and the wires after SETNIB by the nibble its drivers
show. -/
theorem wireLevelsFollowTheDrivers : Obligations.WireLevelsFollowTheDrivers :=
  ⟨fun _ => rfl, fun _ he => if_pos he, fun v => ⟨⟨false, false, v⟩, rfl, rfl⟩,
    fun n s => ⟨_, exec_setnib n s, setNibble_wireD n s⟩⟩

end Sys2Proof.Proofs

/-! PROOFS. The interface events (45_interface_events.md): the dispatch of a word (R180), and what RESET, MOUNT,
UNMOUNT, REPORT and FG do and leave (R181 to R191). -/

namespace Sys2Proof.Proofs

open Sys2Proof.Machine Sys2Proof.Safety

/-! ### MOUNT, UNMOUNT and RESET (R186, R187, R191) -/

theorem mountStep_of_connected {s : State} (h : s.connected = true) :
    mountStep s = { s with out := s.out ++ [.rptReq] } := by
  rw [mountStep_eq, ← h]

theorem unmountStep_idle (s : State) : (unmountStep s).idle = true := by
  simp [State.idle, unmountStep_eq]

theorem unmountStep_idem (s : State) : unmountStep (unmountStep s) = unmountStep s := rfl

/-- Once the block's own button lines are released and the absent entries were, all are (R165). -/
theorem buttonsReleased_of_absent {n : Fin 3} {b : Vector Driver 2} (h : ∀ k : Fin 2, n.val ≤ k.val → b[k] = .rel) :
    buttonsReleased n b = #v[.rel, .rel] := by
  ext k hk
  have hget : (buttonsReleased n b)[(⟨k, hk⟩ : Fin 2)] = (#v[.rel, .rel] : Vector Driver 2)[(⟨k, hk⟩ : Fin 2)] := by
    rw [buttonsReleased_get, buttonsAtPowerOn_get]
    split
    · rfl
    next hlt => exact h _ (Nat.not_lt.1 hlt)
  exact hget

/-! ### REPORT (R181 to R185) -/

theorem reportStep_of_short {len : BitVec 4} (b0 b1 b2 : Byte) (s : State) (hl : len.toNat < 3) :
    reportStep len b0 b1 b2 s = requestReport s := by
  rcases reportStep_cases len b0 b1 b2 s with ⟨-, h⟩ | ⟨hl', -⟩ | ⟨hl', -⟩
  · exact h
  · omega
  · omega

/-- Every report appends one request (R183). -/
theorem reportStep_out (len : BitVec 4) (b0 b1 b2 : Byte) (s : State) :
    (reportStep len b0 b1 b2 s).out = s.out ++ [.rptReq] := by
  rcases reportStep_cases len b0 b1 b2 s with ⟨-, h⟩ | ⟨-, -, -, h⟩ | ⟨-, -, h⟩ <;> rw [h] <;> rfl

/-- An accepted report updates the button lines whether or not its sums fit (R185). -/
theorem reportStep_drvB {len : BitVec 4} (b0 b1 b2 : Byte) (s : State) (hl : 3 ≤ len.toNat) :
    (reportStep len b0 b1 b2 s).drvB = buttonsAfter s.cfg b0 s.drvB := by
  rcases reportStep_cases len b0 b1 b2 s with ⟨hl', -⟩ | ⟨-, -, -, h⟩ | ⟨-, -, h⟩
  · omega
  · rw [h]; rfl
  · rw [h]; rfl

/-- Of its length a report's effect depends only on whether it is accepted (R181). -/
theorem reportStep_congr_len {len len' : BitVec 4} (b0 b1 b2 : Byte) (s : State) (h : accepted len = accepted len') :
    reportStep len b0 b1 b2 s = reportStep len' b0 b1 b2 s := by
  rw [reportStep, h, ← reportStep]

/-- The saturated length of a buffer of at least 3 bytes is accepted (R73, R75). -/
theorem accepted_saturatedLength {n : Nat} (hn : 3 ≤ n) : accepted (BitVec.ofNat 4 (min n 15)) = true := by
  rw [accepted_iff, BitVec.toNat_ofNat]
  omega

/-- Lists with the same first `n` elements have the same element at an index below `n` that both have. -/
theorem getD_eq_of_take_eq {α : Type} {n i : Nat} {r q : List α} (f g : α) (hr : n ≤ r.length) (hq : n ≤ q.length)
    (h : r.take n = q.take n) (hi : i < n) : r.getD i f = q.getD i g := by
  have hget : r[i]? = q[i]? := by rw [← List.getElem?_take_of_lt hi, h, List.getElem?_take_of_lt hi]
  rw [List.getElem?_eq_getElem (by omega), List.getElem?_eq_getElem (by omega), Option.some.injEq] at hget
  rw [List.getD_eq_getElem _ _ (by omega), List.getD_eq_getElem _ _ (by omega), hget]

/-! ### FG (R188, R189) -/

/-- The phase selects the step (R180). -/
theorem fgStep_eq_ite (s : State) : fgStep s = if s.fgPhase = .idle then fgPhase1 s else fgPhase2 s := by
  cases hp : s.fgPhase <;> simp [fgStep, hp]

/-- Phase 1 with nothing to drain does nothing (R188). -/
theorem fgStep_of_clean {s : State} (hp : s.fgPhase = .idle) (hd : s.dirty = false) : fgStep s = s := by
  simpa [hp, hd] using fgStep_cases s

/-- Only the pair (0, 0) under SKIP is not published (R127). -/
theorem publishesPair_iff (s : State) :
    publishesPair s = true ↔ ¬(s.pendX = 0 ∧ s.pendY = 0 ∧ s.cfg.zeroPolicy = .skip) := by
  simp [publishesPair, or_assoc, imp_iff_not_or]

/-- Phase 2 publishes the frame of a pair that the zero policy lets through (R189). -/
theorem fgStep_of_publishesPair {s : State} (hp : s.fgPhase = .pending) (hq : publishesPair s = true) :
    fgStep s = publish (build s.cfg s.pendX s.pendY) { s with fgPhase := .idle } := by
  simpa [hp, hq] using fgStep_cases s

/-- The nibbles of a delta are those of its value modulo 256 (R123). -/
theorem hi4_u8_toNat (v : ℤ) : (hi4 (u8 v)).toNat = (v % 256).toNat / 16 := by
  rw [hi4_toNat, ← u8_toNat, Int.toNat_natCast]

theorem lo4_u8_toNat (v : ℤ) : (lo4 (u8 v)).toNat = (v % 256).toNat % 16 := by
  rw [lo4_toNat, ← u8_toNat, Int.toNat_natCast]

/-! ### The settled statements -/

/-- Settles O8: of a buffer the effect of its REPORT uses the acceptance and bytes 0 to 2, which the two share. -/
theorem bytesBeyondByteTwoAreIgnored : Obligations.BytesBeyondByteTwoAreIgnored := by
  intro f g r q s hr hq h
  have hbyte (i : Nat) (hi : i < 3) : r.getD i f = q.getD i g := getD_eq_of_take_eq f g hr hq h hi
  have hacc := (accepted_saturatedLength hr).trans (accepted_saturatedLength hq).symm
  rw [exec_eq_effect, exec_eq_effect]
  simp only [reportOf, effect, hbyte, Nat.reduceLT]
  rw [reportStep_congr_len _ _ _ _ hacc]

/-- Settles O9: each arm is the step of a word that decodes, or of one that does not. -/
theorem stepDispatchesTheEventWord : Obligations.StepDispatchesTheEventWord := by
  intro s w rest hs u
  refine ⟨fun e he => step_of_illegal hs he, step_of_instr hs, step_of_instr hs, step_of_instr hs,
    fun _ _ _ _ => step_of_instr hs, fun hd => ?fg, fun _ => step_of_instr hs⟩
  case fg => rw [step_of_instr hs hd, effect, fgStep_eq_ite]

/-- Settles O15: RESET as one record update, with the absent button entries released already. -/
theorem resetGivesThePowerOnState : Obligations.ResetGivesThePowerOnState := by
  refine ⟨by decide, fun s habs => ?_⟩
  rw [exec_eq_effect, effect, resetStep_eq, buttonsReleased_of_absent habs]
  rfl

/-- Settles O17: MOUNT as one record update. -/
theorem mountConnectsAndRequests : Obligations.MountConnectsAndRequests :=
  ⟨by decide, fun _ => rfl, fun _ h => congrArg Host.Outcome.next (mountStep_of_connected h),
    fun _ => ⟨_, rfl, rfl, rfl, rfl⟩⟩

/-- Settles O18: UNMOUNT as one record update, which leaves nothing for a second one to write. -/
theorem unmountReturnsToIdle : Obligations.UnmountReturnsToIdle :=
  ⟨by decide, fun s => ⟨unmountStep s, rfl, unmountStep_eq s, unmountStep_idle s,
    congrArg Host.Outcome.next (unmountStep_idem s)⟩⟩

/-- Settles O21: a short report is the request alone. -/
theorem undersizedReportIsDiscarded : Obligations.UndersizedReportIsDiscarded := by
  intro len b0 b1 b2 s hl
  rw [exec_eq_effect, effect, reportStep_of_short b0 b1 b2 s hl]
  rfl

/-- Settles O22: the log after a report, accepted or not. -/
theorem everyReportRequestsTheNext : Obligations.EveryReportRequestsTheNext :=
  fun len b0 b1 b2 s => ⟨reportStep len b0 b1 b2 s, rfl, reportStep_out len b0 b1 b2 s⟩

/-- Settles O23: the button lines after a report and after an edge with no active frame, read at each line. -/
theorem reportDrivesTheButtonLines : Obligations.ReportDrivesTheButtonLines := by
  refine ⟨fun len b0 b1 b2 s hl => ⟨reportStep len b0 b1 b2 s, rfl, fun k => ?report⟩,
    fun lvl s ha hl => ⟨_, exec_clk_of_inactive ha hl, fun k hk => ?edge⟩⟩
  case report => rw [reportStep_drvB b0 b1 b2 s hl, buttonsAfter_get]
  case edge => exact (buttonsReleased_get _ _ k).trans (if_pos hk)

/-- Settles O24: the two cases of phase 1, with the clamp as its formula. -/
theorem foregroundDrainsAndClamps : Obligations.ForegroundDrainsAndClamps := by
  refine ⟨by decide, fun s hp hd => ?drain, fun s hp hd => ?clean⟩
  case drain =>
    rw [exec_eq_effect, effect, fgStep_of_dirty hp hd, clamp_eq_max_min, clamp_eq_max_min]
    rfl
  case clean => rw [exec_eq_effect, effect, fgStep_of_clean hp hd]

/-- Settles O25: the two cases of phase 2, the published frame read element by element. -/
theorem foregroundPublishesThePair : Obligations.ForegroundPublishesThePair := by
  refine fun s hp => ⟨fun hx hy hz => ?skip, fun hn => ⟨fgStep s, rfl, ?publish⟩⟩
  case skip => rw [exec_eq_effect, effect, fgStep_of_zeroPair hp hx hy hz]
  case publish =>
    rw [fgStep_of_publishesPair hp ((publishesPair_iff s).2 hn)]
    have hshows := nibbleDrivers_shows s.cfg.idNibble
    exact ⟨rfl, rfl, rfl, rfl, rfl, rfl, hi4_u8_toNat _, lo4_u8_toNat _, hi4_u8_toNat _, lo4_u8_toNat _, hshows,
      wireD_of_showsNibble hshows, rfl⟩

end Sys2Proof.Proofs

/-! PROOFS. Exceptions (60_exceptions.md): a fault or a refusal is a mark of the state, and the block runs on (R210 to
R213, R220). -/

namespace Sys2Proof.Proofs

open Sys2Proof.Machine Sys2Proof.Safety

/-- Settles O12, by induction on the number of steps: `step_next` gives the first step of a run, whatever word waits. -/
theorem noRunEverStops : Obligations.NoRunEverStops := by
  intro k
  induction k with
  | zero => exact fun s => ⟨s, runs_zero.2 rfl⟩
  | succ k ih =>
    intro s
    obtain ⟨u, hu⟩ := step_next s
    obtain ⟨t, ht⟩ := ih u
    exact ⟨t, runs_succ.2 ⟨u, hu, ht⟩⟩

end Sys2Proof.Proofs

/-! PROOFS. Reset and hazards (70_reset_and_hazards.md): the power-on state (R41, R231), the repetition of an active frame
(R245), and element 0 on the lines twice (R243). -/

namespace Sys2Proof.Proofs

open Sys2Proof.Machine Sys2Proof.Safety

/-- After one whole frame of elements the cursor is where it was, and the lines show the element before it (R245). -/
theorem Emitted.wholeFrame {s t : State} (h : Emitted 7 s t) :
    t.cursor = s.cursor ∧ ∀ i : Fin 7, (i.val + 1) % 7 = s.cursor.val → t.drvD = nibbleDrivers s.frame[i] := by
  have hcursor := h.cursor
  exact ⟨by omega, fun i hi => h.shown (by decide) i (by omega)⟩

/-- Two edges in a row of an active frame: the second shows the element after the one under the cursor (R142). -/
theorem exec_clk_twice_of_active {s : State} {lvl : Bool} (ha : s.active = true) (hl : lvl ≠ s.clkLevel) :
    ∃ u v, exec (.clk lvl) s = .next u ∧ exec (.clk (!lvl)) u = .next v ∧
      u.drvD = nibbleDrivers s.frame[s.cursor] ∧ v.drvD = nibbleDrivers s.frame[nextCursor s.cursor] := by
  have hfirst := exec_clk_of_active ha hl
  have hsecond := exec_clk_of_active (s := emitActive { s with clkLevel := lvl }) ha (Bool.not_ne_self lvl)
  exact ⟨_, _, hfirst, hsecond, rfl, rfl⟩

/-! ### The settled statements -/

/-- Settles O34: a run that keeps the frame emits one element for each of its seven edges, which is one whole frame. -/
theorem sevenEdgesRepeatTheFrame : Obligations.SevenEdgesRepeatTheFrame := by
  intro k s t ha hk h hseven
  have hemitted := runs_emitted h ha hk
  rw [hseven] at hemitted
  obtain ⟨hcursor, hshown⟩ := hemitted.wholeFrame
  refine ⟨hemitted.active, hemitted.frame, hcursor, fun i hi => ?_⟩
  rw [hshown i hi]
  exact nibbleDrivers_shows _

/-- Settles O36: the publication stages element 0, the ID nibble, and leaves the cursor on it, so the first of the two
edges shows it again. -/
theorem elementZeroAppearsTwice : Obligations.ElementZeroAppearsTwice := by
  intro s lvl hp hm hl
  have hfg := exec_fg_of_motion hp hm
  obtain ⟨u, v, hfirst, hsecond, hzero, hone⟩ :=
    exec_clk_twice_of_active (s := publish (build s.cfg s.pendX s.pendY) { s with fgPhase := .idle }) rfl hl
  refine ⟨_, u, v, hfg, hfirst, hsecond, nibbleDrivers_shows _, hzero, ?_⟩
  rw [hone]
  exact nibbleDrivers_shows _

/-- Settles O16: the power-on state read field by field, its vectors element by element. -/
theorem powerOnStateIsIdle : Obligations.PowerOnStateIsIdle :=
  ⟨rfl, fun _ => ⟨rfl, rfl, rfl, zeroFrame_get, rfl, rfl, rfl, rfl, rfl, rfl, dataReleased_get, buttonsAtPowerOn_get,
    rfl, rfl, rfl, rfl, rfl, rfl⟩⟩

end Sys2Proof.Proofs
